-- ==== Sys2Proof/Word.lean ====
section
/-! DEFINITION. The word types of the block: the byte every operand and every bus datum is (R9, R36), the
48-bit request word (R56) and the 40-bit response word (R57). Every value is unsigned; there is no signed value. -/

namespace Sys2Proof

/-- An 8-bit unsigned value, 0 to 255: an operand, a bus address, a byte on the wire (R9). -/
abbrev Byte := BitVec 8

/-- The request word `REQ`, host to block (R56). -/
abbrev ReqWord := BitVec 48

/-- The response word `RSP`, block to host, one per event (R57). -/
abbrev RspWord := BitVec 40

end Sys2Proof
end

