-- ==== Sys2Proof/Config.lean ====
section
/-! DEFINITION. What is fixed outside the block and left open by the spec: the named parameters of R7, and the
free answers of the transport (R22, U11, U13, U14 of 93_implementation_defined.md). Both are constants without a
body: no proof can learn a value of theirs. -/

namespace Sys2Proof

/-- The command, address and data bytes of one packet, in the order of the operands (`IND_ON_PKT`, `IND_OFF_PKT`
of R7). -/
structure PacketFields where
  command : Byte
  address : Byte
  data : Byte
deriving DecidableEq, Repr, Inhabited

/-- The named parameters of R7. The three operations of the block depend on none of them; only the host's
pseudo-operations do. -/
structure Params where
  /-- `HOLDER_ADDR` -/
  holderAddr : Byte
  /-- `CART0_ADDR` -/
  cart0Addr : Byte
  /-- `CART1_ADDR` -/
  cart1Addr : Byte
  /-- `CMD_FAN_PWM` -/
  cmdFanPwm : Byte
  /-- `CMD_LED_PWM_*`, the first: at least two, `"variants"` (R62); how many and which is open, and no
  pseudo-operation sends one by name (90_conflicts.md C4). -/
  cmdLedPwm0 : Byte
  /-- `CMD_LED_PWM_*`, the second -/
  cmdLedPwm1 : Byte
  /-- `CMD_LED_PWM_*`, any further ones -/
  cmdLedPwmMore : List Byte
  /-- `CMD_EE_WRITE` -/
  cmdEeWrite : Byte
  /-- `CMD_EE_READ` -/
  cmdEeRead : Byte
  /-- `CMD_READ_SERIAL`: no pseudo-operation sends it by name (90_conflicts.md C4). -/
  cmdReadSerial : Byte
  /-- `CMD_READ_SIZE` -/
  cmdReadSize : Byte
  /-- `CMD_READ_TYPE` -/
  cmdReadType : Byte
  /-- `CMD_READ_STATION` -/
  cmdReadStation : Byte
  /-- `CMD_READ_ERROR` -/
  cmdReadError : Byte
  /-- `CMD_READ_FWVER` -/
  cmdReadFwver : Byte
  /-- `CMD_CLEAR_ERROR` -/
  cmdClearError : Byte
  /-- `CMD_READ_VSENSE` -/
  cmdReadVsense : Byte
  /-- `CMD_READ_GPIO_SW` -/
  cmdReadGpioSw : Byte
  /-- `CMD_READ_MATERIAL` (90_conflicts.md C4) -/
  cmdReadMaterial : Byte
  /-- `CMD_GET_ID` (91_not_in_source.md N7) -/
  cmdGetId : Byte
  /-- `IND_ON_PKT` -/
  indOnPkt : PacketFields
  /-- `IND_OFF_PKT` -/
  indOffPkt : PacketFields
  /-- `SERIAL_PAD_PRECISION` (91_not_in_source.md N12): 8 bits, as R7 has it of every parameter -/
  serialPadPrecision : Byte
deriving DecidableEq, Repr, Inhabited

/-- The *CommandCode* enumeration of R62, of at least 14 members. `CMD_READ_MATERIAL` and `CMD_GET_ID` are not in the
source's list (90_conflicts.md C4, N7). -/
def Params.commandCodes (p : Params) : List Byte :=
  [p.cmdFanPwm, p.cmdLedPwm0, p.cmdLedPwm1, p.cmdEeWrite, p.cmdEeRead, p.cmdReadSerial, p.cmdReadSize, p.cmdReadType,
    p.cmdReadStation, p.cmdReadError, p.cmdReadFwver, p.cmdReadVsense, p.cmdReadGpioSw, p.cmdClearError]
    ++ p.cmdLedPwmMore

/-- What the transport does of its own accord in one of its calls, beside the call's own effect: R21 lets it set
`TFLAG` during any call (before the call's own effect on the flag, after it, or both), and R22, U13 let it have any
bytes. `rxq = none` leaves the receive queue to the call's own
effect (premise TA2 of R23, and for `requestBytes`: nothing new came); `rxq = some q` makes the queue `q`, for
`requestBytes` the bytes the call fetched together with whatever it kept of older ones (R164). -/
structure Answer where
  /-- the transport sets its time-out flag during the call, before the call's own effect: `timeoutFlagSet` answers
  with it, `resetTimeoutFlag` clears it -/
  setsFlag : Bool
  /-- the transport sets its time-out flag during the call, after the call's own effect: `timeoutFlagSet` has answered
  without it, `resetTimeoutFlag` has cleared before it -/
  setsFlagAfter : Bool
  /-- the receive queue the transport leaves, where it changes it of its own accord -/
  rxq : Option (List Byte)
deriving DecidableEq, Repr, Inhabited

/-- The parameters of the machine at hand (R7: open). -/
opaque Config.params : Params

/-- FREE VALUE (log entry 3). The transport's answer to a call the state lists no answer for, at the `n`-th such
draw: any flag, any bytes (U13, U14), or `none`: the call has not returned (U11; premise TA3 of R23 is not assumed). -/
opaque Config.freeAnswer : Nat → Option Answer

end Sys2Proof
end

