-- ==== Sys2Proof/Syntax.lean ====
section
/-! DEFINITION. The operations the block accepts on its request port (R58): one constructor per row of
opcode_table.json. A constructor carries all five operand fields of the request word (R56), in the word's order, the
fields its operation does not read included: such a field may hold any value (R60), and the request latches are
loaded from it all the same (R13), so no bit of an accepted request word is lost in decoding. -/

namespace Sys2Proof

/-- An operation with the operand fields of its request word. -/
inductive Instr where
  /-- ENCODE target, command, address, data (R70); `count` is not read (R60). -/
  | encode (target command address data count : Byte)
  /-- READ target, count (R80); `command`, `address` and `data` are not read (R60). -/
  | read (target command address data count : Byte)
  /-- READ_ID target (R95); `command`, `address`, `data` and `count` are not read (R60). -/
  | readId (target command address data count : Byte)
deriving DecidableEq, Repr

end Sys2Proof
end

