-- ==== Sys2Proof/Decode.lean ====
section
/-! DEFINITION. The request word read and written: the field positions of R56, the operation map of R58, the reserved
`op` values of R59 rejected by name; then the encoder; and the packet as a 24-bit number (R52). -/

namespace Sys2Proof

/-- Why a request word stands for no operation. -/
inductive DecodeError where
  /-- the `op` field holds a reserved value, `0x03` to `0xFF` (R59) -/
  | reservedOp (op : Byte)
deriving DecidableEq, Repr

/-- `op` of ENCODE (R58). -/
def opEncode : Byte := 0x00
/-- `op` of READ (R58). -/
def opRead : Byte := 0x01
/-- `op` of READ_ID (R58). -/
def opReadId : Byte := 0x02

/-- `REQ[47:40]` (R56). -/
def reqOp (w : ReqWord) : Byte := w.extractLsb' 40 8
/-- `REQ[39:32]` (R56). -/
def reqTarget (w : ReqWord) : Byte := w.extractLsb' 32 8
/-- `REQ[31:24]` (R56). -/
def reqCommand (w : ReqWord) : Byte := w.extractLsb' 24 8
/-- `REQ[23:16]` (R56). -/
def reqAddress (w : ReqWord) : Byte := w.extractLsb' 16 8
/-- `REQ[15:8]` (R56). -/
def reqData (w : ReqWord) : Byte := w.extractLsb' 8 8
/-- `REQ[7:0]` (R56). -/
def reqCount (w : ReqWord) : Byte := w.extractLsb' 0 8

/-- The operation a request word stands for; a reserved `op` is rejected by name (R58, R59). Only `op` is looked at
to choose (R58), and no field is checked (R36, R60). -/
def decodeReq (w : ReqWord) : Except DecodeError Instr :=
  if reqOp w = opEncode then
    .ok (.encode (reqTarget w) (reqCommand w) (reqAddress w) (reqData w) (reqCount w))
  else if reqOp w = opRead then
    .ok (.read (reqTarget w) (reqCommand w) (reqAddress w) (reqData w) (reqCount w))
  else if reqOp w = opReadId then
    .ok (.readId (reqTarget w) (reqCommand w) (reqAddress w) (reqData w) (reqCount w))
  else .error (.reservedOp (reqOp w))

/-- Six fields put together, `op` in the most significant byte (R56). -/
def packReq (op target command address data count : Byte) : ReqWord :=
  op ++ target ++ command ++ address ++ data ++ count

/-- The `op` value of an operation (R58). -/
def Instr.op : Instr → Byte
  | .encode _ _ _ _ _ => opEncode
  | .read _ _ _ _ _ => opRead
  | .readId _ _ _ _ _ => opReadId

/-- The request word of an operation (R56, R58). -/
def encodeReq : Instr → ReqWord
  | .encode target command address data count => packReq opEncode target command address data count
  | .read target command address data count => packReq opRead target command address data count
  | .readId target command address data count => packReq opReadId target command address data count

/-- The operation the decoder reads from the bits `w` of an opcode-table row of `nbits` bits, bit 0 the least
significant: the rows are 48 bits wide, bits above `nbits` are 0. -/
def decodeTableWord (nbits w : Nat) : Option Instr :=
  if nbits ≤ 48 then
    match decodeReq (BitVec.ofNat 48 (w % 2 ^ nbits)) with
    | .ok i => some i
    | .error _ => none
  else none

/-- The packet as one number, first wire byte most significant: `W = {command, data, address}` (R52). -/
def packetWord (command address data : Byte) : BitVec 24 := command ++ data ++ address

end Sys2Proof
end

