-- ==== Sys2Proof/Machine/State.lean ====
section
/-! DEFINITION. The state of the four agents of R10 as plain data: the block's registers (R13 to R17), its two
output records (R12, R19), the transport's state (R20 to R22, R72), the ports (R44, R56, R160) and the host's
dispatcher (43_dispatcher.md); the faults and refusals; and the state after reset (R24, R160). -/

namespace Sys2Proof.Machine

/-- `PHASE`, the sequencer position: `IDLE` or the label of the pseudocode line to run next (R15). An enumeration
without a numeric encoding. -/
inductive Phase where
  | idle
  | en0 | en1 | en2 | en3 | en4 | en5
  | rd0 | rd1 | rd2 | rd3 | rd4 | rd5 | rd6
  | id0 | id1 | id2 | id3 | id4 | id5 | id6 | id7 | id8
deriving DecidableEq, Repr

/-- The request latches (R13): loaded together at acceptance, unchanged until the next one. -/
structure Latches where
  op : Byte
  target : Byte
  command : Byte
  address : Byte
  data : Byte
  count : Byte
deriving DecidableEq, Repr

/-- The slot registers of READ_ID, under the source's names by index 0 to 3 (R14). -/
structure Slots where
  /-- `SLOT[0]` -/
  programmerStation : Byte
  /-- `SLOT[1]`, the source's `type` -/
  peripheralType : Byte
  /-- `SLOT[2]` -/
  serialHigh : Byte
  /-- `SLOT[3]` -/
  serialLow : Byte
deriving DecidableEq, Repr

/-- One event of the response stream (R57). -/
inductive Event where
  | byte (b : Byte)
  | timedOut
  | noData
  | ident (peripheralType station : Byte) (serial : BitVec 16)
  | done
deriving DecidableEq, Repr

/-- One transport call that has returned, with its arguments and the result the block uses: an element of the
transport trace (R9, R12, R152). -/
inductive Call where
  | beginTransaction (address : Byte)
  | writeByte (b : Byte)
  | endTransaction
  | requestBytes (address count : Byte)
  | bytesAvailable (n : Nat)
  | readByte (b : Byte)
  | timeoutFlagSet (f : Bool)
  | resetTimeoutFlag
deriving DecidableEq, Repr

/-- The transport (R20): the three parts of its state the rules name, what it has handed to the bus, and the answers
it will still give. -/
structure Transport where
  /-- `TFLAG`, the sticky time-out flag (R21) -/
  tflag : Bool
  /-- `RXQ`, the bytes of the latest reply frame not yet read (R22) -/
  rxq : List Byte
  /-- `OPEN`, the open write transaction: address and bytes so far (R72) -/
  openTx : Option (Byte × List Byte)
  /-- the write transactions handed to the bus by `endTransaction` (R72), oldest first -/
  wire : List (Byte × List Byte)
  /-- MODEL'S OWN (log entry 2): what the transport will do in its next calls, one entry a call. A call finds no
  entry: it has not returned yet. -/
  answers : List Answer
  /-- MODEL'S OWN (log entry 3): how many free answers have been drawn -/
  draws : Nat
deriving DecidableEq, Repr

/-- The symbolic labels of console lines (R110: the literal texts are in no source). -/
inductive Label where
  | eeprom | timeout | noData | peripheralType | station | serial | size | material | error | fwver
  | vsenseCart0 | vsenseCart1 | syringe | cleared
deriving DecidableEq, Repr

/-- One console line: a label, and the digits printed after it (none where the line carries no number) (R110). -/
structure ConsoleLine where
  label : Label
  digits : List Char
deriving DecidableEq, Repr

/-- How the host reports the events of a request: not at all, by R124 with a label, or by R117. -/
inductive Report where
  | silent
  | bytes (label : Label)
  | ident
deriving DecidableEq, Repr

/-- The 16 pseudo-operations of the host (R65). -/
inductive PseudoOp where
  | genCmd (target command address data : Byte)
  | setFan (duty : BitVec 16)
  | fanOff
  | toggleInd (en : Byte)
  | eeWrite (target cell value : Byte)
  | eeRead (target cell : Byte)
  | getId (target : Byte)
  | getStation (target : Byte)
  | getType (target : Byte)
  | getSize (target : Byte)
  | getMaterial (target : Byte)
  | getError (target : Byte)
  | getFwver (target : Byte)
  | getVsense (target : Byte)
  | getGpioSw (target : Byte)
  | clearErr (target : Byte)
deriving DecidableEq, Repr

/-- One action of a pseudo-operation's expansion (R110): a request and how its events are reported, or a console
line of its own. -/
inductive Action where
  | issue (i : Instr) (report : Report)
  | say (label : Label)
deriving DecidableEq, Repr

/-- One entry of the host's program: a pseudo-operation, or a bare request word (R4: "a model of the block is tested
through them"; R111). -/
inductive HostOp where
  | pseudo (op : PseudoOp)
  | request (w : ReqWord) (report : Report)
deriving DecidableEq, Repr

/-- The host's Command Dispatcher (R10, R110): what it will still issue, what is left of the running
pseudo-operation, how the running request is reported, how many events it has taken, and the console. -/
structure Dispatcher where
  program : List HostOp
  todo : List Action
  report : Report
  taken : Nat
  console : List ConsoleLine
deriving DecidableEq, Repr

/-- The whole machine. -/
structure State where
  /-- `PHASE` (R15) -/
  phase : Phase
  /-- the transport call of the line at `PHASE` has been made and has not returned (R15, R172) -/
  inCall : Bool
  /-- `OP`, `TARGET`, `COMMAND`, `ADDRESS`, `DATA`, `COUNT` (R13) -/
  latches : Latches
  /-- `SLOT[0..3]` (R14) -/
  slots : Slots
  /-- `IDX` (R14) -/
  idx : BitVec 3
  /-- the response stream (R19), oldest first -/
  events : List Event
  /-- the transport trace (R12), oldest first -/
  trace : List Call
  /-- the transport (R20) -/
  transport : Transport
  /-- the request the host presents on the request port, if any (R44, R56) -/
  req : Option ReqWord
  /-- the reset input (R160) -/
  resetLine : Bool
  /-- the host's dispatcher (43_dispatcher.md) -/
  dispatcher : Dispatcher
deriving DecidableEq, Repr

/-- Why the machine stops with a fault. -/
inductive Fault where
  /-- `T.readByte()` was called with nothing in `RXQ`: U10 asks for a fault; R152 says the block never does it.
  Raised by the lines RD2 and ID3, only in states outside the invariant. Safe. -/
  | readByteOnEmptyQueue
  /-- `T.writeByte` or `T.endTransaction` was called with no open write transaction: R72 gives them no effect there.
  Raised by the lines EN1 to EN4, only in states outside the invariant. Safe. -/
  | noOpenTransaction
deriving DecidableEq, Repr

/-- Why a step is refused. -/
inductive Refusal where
  /-- the operation has no meaning in the model yet; raised by `exec`'s arms only. Safe. -/
  | notModelled (mnemonic : String)
  /-- a request with a reserved `op` (R59, U1); raised by `step`. Safe. -/
  | reservedOp (op : Byte)
  /-- the reset input is asserted while BUSY (R161, U2); raised by `step`. Safe. -/
  | resetWhileBusy
deriving DecidableEq, Repr

/-- The transport at launch. `TFLAG`, `RXQ` and `OPEN` are not specified (R24, R164): DESIGN CHOICE, unsafe, log
entry 8. -/
def Transport.launch : Transport :=
  { tflag := false, rxq := [], openTx := none, wire := [], answers := [], draws := 0 }

/-- The host before it has issued anything. -/
def Dispatcher.start : Dispatcher :=
  { program := [], todo := [], report := .silent, taken := 0, console := [] }

/-- The latches after reset: the spec gives no value (R24). DESIGN CHOICE, unsafe, log entry 7. -/
def Latches.reset : Latches :=
  { op := 0, target := 0, command := 0, address := 0, data := 0, count := 0 }

/-- All four slots zero: what `ID0` writes (R97), and after reset a DESIGN CHOICE, unsafe, log entry 7. -/
def Slots.zero : Slots :=
  { programmerStation := 0, peripheralType := 0, serialHigh := 0, serialLow := 0 }

/-- The machine right after reset: `PHASE` is `IDLE` and the response stream is empty (R24, R160); the registers the
spec gives no value hold the values of log entry 7, the transport those of log entry 8. -/
def State.reset : State :=
  { phase := .idle
    inCall := false
    latches := Latches.reset
    slots := Slots.zero
    idx := 0
    events := []
    trace := []
    transport := Transport.launch
    req := none
    resetLine := false
    dispatcher := Dispatcher.start }

end Sys2Proof.Machine
end

