-- ==== Sys2Proof/Machine/Flags.lean ====
section
/-! DEFINITION. The one flag the block reads and clears, the transport's sticky `TFLAG` (R18, R21), and the status
bit `BUSY` (R16). -/

namespace Sys2Proof.Machine

/-- The transport sets `TFLAG` at some time during the call (R21, U14). -/
def Answer.touchesFlag (a : Sys2Proof.Answer) : Bool := a.setsFlag || a.setsFlagAfter

/-- What the transport does of its own accord in a call: it may set `TFLAG`, never clear it (R21), and may change
`RXQ` (R22; premise TA2 of R23 is not assumed). -/
def Transport.disturb (a : Sys2Proof.Answer) (t : Transport) : Transport :=
  { t with tflag := t.tflag || Answer.touchesFlag a, rxq := a.rxq.getD t.rxq }

/-- `T.timeoutFlagSet()`: the present value of `TFLAG`, which the call does not change (R21, R152); the transport may
set the flag before the value is taken or after. -/
def Transport.timeoutFlagSet (a : Sys2Proof.Answer) (t : Transport) : Except Fault (Transport × Bool) :=
  .ok (t.disturb a, t.tflag || a.setsFlag)

/-- `T.resetTimeoutFlag()` makes `TFLAG` false (R21, R152); the transport may set it again before the call returns
("a model must allow any" call, R21). -/
def Transport.resetTimeoutFlag (a : Sys2Proof.Answer) (t : Transport) : Except Fault (Transport × Unit) :=
  .ok ({ t.disturb a with tflag := a.setsFlagAfter }, ())

/-- `BUSY = (PHASE != IDLE)` (R16). -/
def State.busy (s : State) : Bool := s.phase != .idle

end Sys2Proof.Machine
end

