-- ==== Sys2Proof/Machine/Ops.lean ====
section
/-! DEFINITION. The named operations every meaning is written over: the updates of single fields, `emit` (R19), the
acceptance of a request (R13, R15), the transport calls (R20 to R22, R72, R152), and the one way a line makes a call
(R9: "the next line does not start until the call has returned"; R172). The block takes no exception and returns
from none (R146, R147), so there is no operation for either. -/

namespace Sys2Proof.Machine

/-- `PHASE <- p` (R15). -/
def State.setPhase (p : Phase) (s : State) : State := { s with phase := p }

/-- Whether the call of the line at `PHASE` is in progress (R172). -/
def State.setInCall (b : Bool) (s : State) : State := { s with inCall := b }

/-- The latches loaded together (R13). -/
def State.setLatches (l : Latches) (s : State) : State := { s with latches := l }

/-- The four slots written (R14). -/
def State.setSlots (x : Slots) (s : State) : State := { s with slots := x }

/-- `IDX <- i` (R14). -/
def State.setIdx (i : BitVec 3) (s : State) : State := { s with idx := i }

/-- `emit e`: one event appended to the response stream (R9, R19). -/
def State.emit (e : Event) (s : State) : State := { s with events := s.events ++ [e] }

/-- A returned call appended to the transport trace (R12). -/
def State.logCall (c : Call) (s : State) : State := { s with trace := s.trace ++ [c] }

/-- The transport's state after a call. -/
def State.setTransport (t : Transport) (s : State) : State := { s with transport := t }

/-- What the host presents on the request port (R44). -/
def State.setReq (r : Option ReqWord) (s : State) : State := { s with req := r }

/-- The host's state after an action of the dispatcher. -/
def State.setDispatcher (d : Dispatcher) (s : State) : State := { s with dispatcher := d }

/-- The acceptance of a request: the six latches are loaded together (R13) and `PHASE` goes to the operation's first
label (R15). -/
def State.accept (l : Latches) (first : Phase) (s : State) : State :=
  ((s.setLatches l).setInCall false).setPhase first

/-! ### The transport calls

Each takes what the transport does of its own accord in the call, and gives the transport's state and the result the
block uses. TFLAG's two calls are in Machine/Flags.lean. -/

/-- `T.beginTransaction(a)` makes `OPEN = (a, [])` (R72). -/
def Transport.beginTransaction (a : Byte) (x : Answer) (t : Transport) : Except Fault (Transport × Unit) :=
  .ok ({ t.disturb x with openTx := some (a, []) }, ())

/-- `T.writeByte(b)` appends `b` to `OPEN` (R72). -/
def Transport.writeByte (b : Byte) (x : Answer) (t : Transport) : Except Fault (Transport × Unit) :=
  match t.openTx with
  | some (a, bs) => .ok ({ t.disturb x with openTx := some (a, bs ++ [b]) }, ())
  | none => .error .noOpenTransaction

/-- `T.endTransaction()` hands the address and the bytes to the bus and makes `OPEN` none (R72). -/
def Transport.endTransaction (x : Answer) (t : Transport) : Except Fault (Transport × Unit) :=
  match t.openTx with
  | some tx => .ok ({ t.disturb x with openTx := none, wire := t.wire ++ [tx] }, ())
  | none => .error .noOpenTransaction

/-- `T.requestBytes(a, n)` leaves the fetched bytes in `RXQ` (R22). Which bytes, how many, and what becomes of stale
ones is the transport's (U13, R164): the answer says it. -/
def Transport.requestBytes (x : Answer) (t : Transport) : Except Fault (Transport × Unit) :=
  .ok (t.disturb x, ())

/-- `T.bytesAvailable()` returns how many bytes `RXQ` holds (R22). -/
def Transport.bytesAvailable (x : Answer) (t : Transport) : Except Fault (Transport × Nat) :=
  let t' := t.disturb x
  .ok (t', t'.rxq.length)

/-- `T.readByte()` removes and returns the first byte of `RXQ` (R22); on an empty queue a fault (U10). The
transport's own change of the queue comes after the removal (log entry 4). -/
def Transport.readByte (x : Answer) (t : Transport) : Except Fault (Transport × Byte) :=
  match t.rxq with
  | b :: q => .ok (({ t with rxq := q } : Transport).disturb x, b)
  | [] => .error .readByteOnEmptyQueue

/-! ### One line of the pseudocode -/

/-- What running the line at `PHASE` comes to. -/
inductive LineOut where
  /-- the line is done -/
  | moved (s : State)
  /-- the line's transport call has not returned (R172); or nothing is running -/
  | waits (s : State)
  /-- the line stops the machine -/
  | stops (f : Fault)
deriving DecidableEq, Repr

/-- The call of the line is made: what stands before it is done once, not again while it has not returned. -/
def State.enterCall (before : State → State) (s : State) : State :=
  if s.inCall then s else (before s).setInCall true

/-- A line that makes one transport call: what stands before the call is done once, when the call is made; the call
takes the transport's next answer; with none listed it has not returned, and the block stays at the line (R172);
when it returns it is recorded in the trace (R12), and what stands after it is done with its result. -/
def State.callLine {α : Type} (s : State) (before : State → State)
    (call : Answer → Transport → Except Fault (Transport × α)) (record : α → Call)
    (after : α → State → State) : LineOut :=
  let s₁ := s.enterCall before
  match s₁.transport.answers with
  | [] => .waits s₁
  | x :: rest =>
    match call x { s₁.transport with answers := rest } with
    | .error f => .stops f
    | .ok (t, r) => .moved (after r (((s₁.setTransport t).logCall (record r)).setInCall false))

/-- A line without a transport call: it cannot block. -/
def State.plainLine (s : State) (act : State → State) : LineOut := .moved (act s)

/-- Reset of the block (R160, R162): `PHASE` and the response stream as after reset, every other register of the
block at the value log entry 7 names; the transport, the trace of its calls, the request port and the host are not
the block's and stay, but that the host starts the emptied stream anew. Refused while BUSY (R161).
DESIGN CHOICE (log entry 14; the spec is silent on a reset within a pseudo-operation): events of the emptied stream that
the host had not yet taken are lost and give no console line (R124), and the host goes on with what it still has to do. -/
def applyReset (s : State) : Host.Outcome State Fault Refusal :=
  if s.busy then .refused .resetWhileBusy
  else .next { State.reset with
    trace := s.trace
    transport := s.transport
    req := s.req
    dispatcher := { s.dispatcher with taken := 0 } }

end Sys2Proof.Machine
end

