-- ==== Sys2Proof/Machine/Operands.lean ====
section
/-! DEFINITION. The operand forms (R55): the packet from the latches (R51), the slots by index (R53, R98, R99), the
serial (R100), the identification event (R101), and the response word of an event (R57). -/

namespace Sys2Proof.Machine

/-- The three payload bytes in wire order: command, data, address (R33, R51). -/
def Latches.packet (l : Latches) : List Byte := [l.command, l.data, l.address]

/-- The count READ_ID requests, whatever the count field holds (R37, R60, R98). -/
def idCount : Byte := 4

/-- `if IDX < 4 then SLOT[IDX] <- b`: a fifth or later byte is stored nowhere (R98, R99). -/
def Slots.write (i : BitVec 3) (b : Byte) (x : Slots) : Slots :=
  match i.toNat with
  | 0 => { x with programmerStation := b }
  | 1 => { x with peripheralType := b }
  | 2 => { x with serialHigh := b }
  | 3 => { x with serialLow := b }
  | _ => x

/-- `if IDX < 4 then IDX <- IDX + 1`: with four bytes stored `IDX` stays 4 (R14, R99). -/
def nextIdx (i : BitVec 3) : BitVec 3 := if i < 4 then i + 1 else i

/-- The second half of line `ID3`: the byte read goes to its slot and is counted (R98, R99). -/
def State.storeReply (b : Byte) (s : State) : State :=
  (s.setSlots (s.slots.write s.idx b)).setIdx (nextIdx s.idx)

/-- `zext_16(high) * 255 + zext_16(low)`: the multiplier is 255 (R100). -/
def serialOf (high low : Byte) : BitVec 16 := high.setWidth 16 * 255 + low.setWidth 16

/-- The `Ident` event of line `ID7`, from the slots (R17, R101). -/
def Slots.identEvent (x : Slots) : Event :=
  .ident x.peripheralType x.programmerStation (serialOf x.serialHigh x.serialLow)

/-- The response word: the kind in bits 39:32, the payload in bits 31:0 (R57). -/
def Event.rsp : Event → RspWord
  | .byte b => (0x00 : BitVec 8) ++ b.setWidth 32
  | .timedOut => 0x0100000000
  | .noData => 0x0200000000
  | .ident ty station serial => (0x03 : BitVec 8) ++ ty ++ station ++ serial
  | .done => 0x0400000000

end Sys2Proof.Machine
end

