-- ==== Sys2Proof/Machine/EncodeLines.lean ====
section
/-! DEFINITION. The lines EN0 to EN5 of ENCODE (R71), one definition a label. The results of the five calls are
discarded (R73). -/

namespace Sys2Proof.Machine

/-- `EN0: T.beginTransaction(TARGET)` (R71). -/
def lineEn0 (s : State) : LineOut :=
  s.callLine id (Transport.beginTransaction s.latches.target)
    (fun _ => .beginTransaction s.latches.target) (fun _ => State.setPhase .en1)

/-- `EN1: T.writeByte(COMMAND)`, the first payload byte (R71). -/
def lineEn1 (s : State) : LineOut :=
  s.callLine id (Transport.writeByte s.latches.command)
    (fun _ => .writeByte s.latches.command) (fun _ => State.setPhase .en2)

/-- `EN2: T.writeByte(DATA)`, the second payload byte: data before address (R71, R166). -/
def lineEn2 (s : State) : LineOut :=
  s.callLine id (Transport.writeByte s.latches.data)
    (fun _ => .writeByte s.latches.data) (fun _ => State.setPhase .en3)

/-- `EN3: T.writeByte(ADDRESS)`, the third payload byte (R71). -/
def lineEn3 (s : State) : LineOut :=
  s.callLine id (Transport.writeByte s.latches.address)
    (fun _ => .writeByte s.latches.address) (fun _ => State.setPhase .en4)

/-- `EN4: T.endTransaction()` (R71). -/
def lineEn4 (s : State) : LineOut :=
  s.callLine id Transport.endTransaction (fun _ => .endTransaction) (fun _ => State.setPhase .en5)

/-- `EN5: emit Done ; PHASE <- IDLE` (R71, R75). -/
def lineEn5 (s : State) : LineOut :=
  s.plainLine fun s => (s.emit .done).setPhase .idle

end Sys2Proof.Machine
end

