-- ==== Sys2Proof/Machine/ReadIdLines.lean ====
section
/-! DEFINITION. The lines ID0 to ID8 of READ_ID (R96), one definition a label. -/

namespace Sys2Proof.Machine

/-- `ID0`: the four slots and the index are cleared (R97). -/
def lineId0 (s : State) : LineOut :=
  s.plainLine fun s => ((s.setSlots Slots.zero).setIdx 0).setPhase .id1

/-- `ID1: T.requestBytes(TARGET, 4)` (R98). -/
def lineId1 (s : State) : LineOut :=
  s.callLine id Transport.requestBytes
    (fun _ => .requestBytes s.latches.target idCount) (fun _ => State.setPhase .id2)

/-- `ID2: n <- T.bytesAvailable()`; with `n == 0` emit `NoData` and go to `ID8`: no `Ident` (R102). -/
def lineId2 (s : State) : LineOut :=
  s.callLine id Transport.bytesAvailable .bytesAvailable
    (fun n s => if n = 0 then (s.emit .noData).setPhase .id8 else s.setPhase .id3)

/-- `ID3: b <- T.readByte()`, stored and not reported (R98, R99, R104). -/
def lineId3 (s : State) : LineOut :=
  s.callLine id Transport.readByte .readByte (fun b s => (s.storeReply b).setPhase .id4)

/-- `ID4: f <- T.timeoutFlagSet() ; if not f then PHASE <- ID6` (R103). -/
def lineId4 (s : State) : LineOut :=
  s.callLine id Transport.timeoutFlagSet .timeoutFlagSet
    (fun f => State.setPhase (if f then .id5 else .id6))

/-- `ID5: emit TimedOut ; T.resetTimeoutFlag()` (R103). -/
def lineId5 (s : State) : LineOut :=
  s.callLine (State.emit .timedOut) Transport.resetTimeoutFlag
    (fun _ => .resetTimeoutFlag) (fun _ => State.setPhase .id6)

/-- `ID6: n <- T.bytesAvailable() ; if n != 0 then PHASE <- ID3` (R96). -/
def lineId6 (s : State) : LineOut :=
  s.callLine id Transport.bytesAvailable .bytesAvailable
    (fun n => State.setPhase (if n = 0 then .id7 else .id3))

/-- `ID7`: the serial computed and the `Ident` event emitted (R100, R101). -/
def lineId7 (s : State) : LineOut :=
  s.plainLine fun s => (s.emit s.slots.identEvent).setPhase .id8

/-- `ID8: emit Done ; PHASE <- IDLE` (R96). -/
def lineId8 (s : State) : LineOut :=
  s.plainLine fun s => (s.emit .done).setPhase .idle

end Sys2Proof.Machine
end

