-- ==== Sys2Proof/Machine/ReadLines.lean ====
section
/-! DEFINITION. The lines RD0 to RD6 of READ (R81), one definition a label. -/

namespace Sys2Proof.Machine

/-- `RD0: T.requestBytes(TARGET, COUNT)`, also with `COUNT = 0` (R82). -/
def lineRd0 (s : State) : LineOut :=
  s.callLine id Transport.requestBytes
    (fun _ => .requestBytes s.latches.target s.latches.count) (fun _ => State.setPhase .rd1)

/-- `RD1: n <- T.bytesAvailable()`; with `n == 0` emit `NoData` and go to `RD6` (R83). -/
def lineRd1 (s : State) : LineOut :=
  s.callLine id Transport.bytesAvailable .bytesAvailable
    (fun n s => if n = 0 then (s.emit .noData).setPhase .rd6 else s.setPhase .rd2)

/-- `RD2: b <- T.readByte() ; emit Byte(b)` (R84). -/
def lineRd2 (s : State) : LineOut :=
  s.callLine id Transport.readByte .readByte (fun b s => (s.emit (.byte b)).setPhase .rd3)

/-- `RD3: f <- T.timeoutFlagSet() ; if not f then PHASE <- RD5` (R85). -/
def lineRd3 (s : State) : LineOut :=
  s.callLine id Transport.timeoutFlagSet .timeoutFlagSet
    (fun f => State.setPhase (if f then .rd4 else .rd5))

/-- `RD4: emit TimedOut ; T.resetTimeoutFlag()` (R85): the event is emitted before the call is made. -/
def lineRd4 (s : State) : LineOut :=
  s.callLine (State.emit .timedOut) Transport.resetTimeoutFlag
    (fun _ => .resetTimeoutFlag) (fun _ => State.setPhase .rd5)

/-- `RD5: n <- T.bytesAvailable() ; if n != 0 then PHASE <- RD2`: the loop ends the first time nothing is
available, whatever `COUNT` is (R86). -/
def lineRd5 (s : State) : LineOut :=
  s.callLine id Transport.bytesAvailable .bytesAvailable
    (fun n => State.setPhase (if n = 0 then .rd6 else .rd2))

/-- `RD6: emit Done ; PHASE <- IDLE` (R81). -/
def lineRd6 (s : State) : LineOut :=
  s.plainLine fun s => (s.emit .done).setPhase .idle

end Sys2Proof.Machine
end

