-- ==== Sys2Proof/Machine/Sequencer.lean ====
section
/-! DEFINITION. The sequencer (R15): the line at `PHASE`, and an operation run line after line until it has ended or
a transport call of its has not returned (R11, R40, R172). -/

namespace Sys2Proof.Machine

/-- The line at `PHASE` (R15); at `IDLE` nothing runs. -/
def line (s : State) : LineOut :=
  match s.phase with
  | .idle => .waits s
  | .en0 => lineEn0 s
  | .en1 => lineEn1 s
  | .en2 => lineEn2 s
  | .en3 => lineEn3 s
  | .en4 => lineEn4 s
  | .en5 => lineEn5 s
  | .rd0 => lineRd0 s
  | .rd1 => lineRd1 s
  | .rd2 => lineRd2 s
  | .rd3 => lineRd3 s
  | .rd4 => lineRd4 s
  | .rd5 => lineRd5 s
  | .rd6 => lineRd6 s
  | .id0 => lineId0 s
  | .id1 => lineId1 s
  | .id2 => lineId2 s
  | .id3 => lineId3 s
  | .id4 => lineId4 s
  | .id5 => lineId5 s
  | .id6 => lineId6 s
  | .id7 => lineId7 s
  | .id8 => lineId8 s

/-- At most `n` lines: until the operation has ended (`PHASE` is `IDLE`), a call has not returned, or a fault. -/
def drive : Nat → State → Host.Outcome State Fault Refusal
  | 0, s => .next s
  | n + 1, s =>
    if s.busy then
      match line s with
      | .moved s' => drive n s'
      | .waits s' => .next s'
      | .stops f => .fault f
    else .next s

/-- The running operation, as far as the transport's listed answers carry it. Every line but at most three of an
operation (EN5, RD6; ID0, ID7, ID8) uses up one answer, so the number of lines is enough to end or to wait. -/
def runOp (s : State) : Host.Outcome State Fault Refusal :=
  drive (s.transport.answers.length + 4) s

/-- A request accepted and run (R13, R15). While BUSY it is not accepted and nothing changes (R11, R44, U15). -/
def startOp (l : Latches) (first : Phase) (s : State) : Host.Outcome State Fault Refusal :=
  if s.busy then .next s else runOp (s.accept l first)

/-- A pending call to which the state lists no answer: the transport's answer is a free value, or the call still has
not returned (U11, U13, U14; log entry 3). -/
def State.drawAnswer (s : State) : State :=
  match s.transport.answers with
  | _ :: _ => s
  | [] => s.setTransport { s.transport with
      answers := (Config.freeAnswer s.transport.draws).toList
      draws := s.transport.draws + 1 }

/-- The running operation taken up again (R11: it runs until its last label or for ever). -/
def resume (s : State) : Host.Outcome State Fault Refusal := runOp s.drawAnswer

end Sys2Proof.Machine
end

