-- ==== Sys2Proof/Machine/Operations.lean ====
section
/-! DEFINITION. The meanings of ENCODE, READ and READ_ID: the request's six fields latched (R13), the fields the
operation does not read included, and the operation run from its first label (R15). -/

namespace Sys2Proof.Machine

/-- ENCODE (R70 to R76), from `EN0`. -/
def execEncode (target command address data count : Byte) (s : State) : Host.Outcome State Fault Refusal :=
  startOp { op := opEncode, target := target, command := command, address := address, data := data, count := count }
    .en0 s

/-- READ (R80 to R91), from `RD0`. -/
def execRead (target command address data count : Byte) (s : State) : Host.Outcome State Fault Refusal :=
  startOp { op := opRead, target := target, command := command, address := address, data := data, count := count }
    .rd0 s

/-- READ_ID (R95 to R106), from `ID0`. -/
def execReadId (target command address data count : Byte) (s : State) : Host.Outcome State Fault Refusal :=
  startOp { op := opReadId, target := target, command := command, address := address, data := data, count := count }
    .id0 s

end Sys2Proof.Machine
end

