-- ==== Sys2Proof/Machine/Dispatch.lean ====
section
/-! DEFINITION. `exec`: one arm per operation of the block. -/

namespace Sys2Proof.Machine

open Sys2Proof

def exec (i : Instr) (s : State) : Host.Outcome State Fault Refusal :=
  match i with
  | .encode target command address data count => Sys2Proof.Machine.execEncode target command address data count s
  | .read target command address data count => Sys2Proof.Machine.execRead target command address data count s
  | .readId target command address data count => Sys2Proof.Machine.execReadId target command address data count s

end Sys2Proof.Machine
end

