-- ==== Sys2Proof/Machine/Dispatcher.lean ====
section
/-! DEFINITION. The host side (43_dispatcher.md): what each pseudo-operation issues (R110 to R130), how the events
of a request become console lines (R117, R124, R132), the zero-padding formatter (R131), and one action of the host.
The parameters of R7 are an argument; the machine's step supplies `Config.params`. -/

namespace Sys2Proof.Machine

/-- The sentinel: what a packet field carries that the command does not use (R32, R125). -/
def sentinel : Byte := 0xFF

/-- The request word's operation for `ENCODE target, command, address, data`, in canonical form (R60, R64). -/
def encodeOp (target command address data : Byte) : Instr := .encode target command address data 0

/-- `READ target, count` in canonical form (R60, R64). -/
def readOp (target count : Byte) : Instr := .read target 0 0 0 count

/-- `READ_ID target` in canonical form (R60, R64). -/
def readIdOp (target : Byte) : Instr := .readId target 0 0 0 0

/-- `min(duty, 255)`, the data byte of SET_FAN: the clamp saturates (R112). -/
def clampDuty (duty : BitVec 16) : Byte := BitVec.ofNat 8 (min duty.toNat 255)

/-- The packet of one command that uses neither address nor data, and the reading of one byte, reported under a
label: the expansion of the one-byte queries (section 5 of 43_dispatcher.md; R124, R125). -/
def queryByte (target command : Byte) (label : Label) : List Action :=
  [.issue (encodeOp target command sentinel sentinel) .silent, .issue (readOp target 1) (.bytes label)]

/-- What a pseudo-operation does, in order (R110 to R130). A rejected target gives nothing at all (R127). -/
def expand (p : Params) : PseudoOp → List Action
  -- R111
  | .genCmd target command address data => [.issue (encodeOp target command address data) .silent]
  -- R112
  | .setFan duty => [.issue (encodeOp p.holderAddr p.cmdFanPwm sentinel (clampDuty duty)) .silent]
  -- R113
  | .fanOff => [.issue (encodeOp p.holderAddr p.cmdFanPwm sentinel 0x00) .silent]
  -- R114
  | .toggleInd en =>
    let k := if en = 0 then p.indOffPkt else p.indOnPkt
    [.issue (encodeOp p.holderAddr k.command k.address k.data) .silent]
  -- R115
  | .eeWrite target cell value =>
    [.issue (encodeOp target p.cmdEeWrite cell value) .silent, .issue (readOp target 1) (.bytes .eeprom)]
  -- R116
  | .eeRead target cell =>
    [.issue (encodeOp target p.cmdEeRead cell sentinel) .silent, .issue (readOp target 1) (.bytes .eeprom)]
  -- R117
  | .getId target =>
    [.issue (encodeOp target p.cmdGetId sentinel sentinel) .silent, .issue (readIdOp target) .ident]
  -- R118 to R123
  | .getStation target => queryByte target p.cmdReadStation .station
  | .getType target => queryByte target p.cmdReadType .peripheralType
  | .getSize target => queryByte target p.cmdReadSize .size
  | .getMaterial target => queryByte target p.cmdReadMaterial .material
  | .getError target => queryByte target p.cmdReadError .error
  | .getFwver target => queryByte target p.cmdReadFwver .fwver
  -- R128
  | .getVsense target =>
    if target = p.cart0Addr then queryByte target p.cmdReadVsense .vsenseCart0
    else if target = p.cart1Addr then queryByte target p.cmdReadVsense .vsenseCart1
    else []
  -- R129
  | .getGpioSw target => if target = p.cart1Addr then queryByte target p.cmdReadGpioSw .syringe else []
  -- R130
  | .clearErr target => [.issue (encodeOp target p.cmdClearError sentinel sentinel) .silent, .say .cleared]

/-- A number as unsigned decimal (R124). -/
def decimal (n : Nat) : List Char := Nat.toDigits 10 n

/-- The loop of `padZeros`: one `'0'` for each of `n` thresholds `t`, `10 t`, ... that exceeds the value (R131). -/
def padFrom (value : Nat) : Nat → Nat → List Char
  | 0, _ => []
  | n + 1, t => (if t > value then ['0'] else []) ++ padFrom value n (t * 10)

/-- `padZeros(value, precision)`, the precision capped at 10 (R131): the zeros alone. -/
def padZeros (value precision : Nat) : List Char := padFrom value (min precision 10) 1

/-- One event as console lines (R117, R124, R132): which lines depends on how the request is reported. -/
def reportEvent (p : Params) : Report → Event → List ConsoleLine
  | .silent, _ => []
  | .bytes l, .byte b => [⟨l, decimal b.toNat⟩]
  | .ident, .ident ty station serial =>
    [⟨.peripheralType, decimal ty.toNat⟩, ⟨.station, decimal station.toNat⟩,
     ⟨.serial, padZeros serial.toNat p.serialPadPrecision.toNat ++ decimal serial.toNat⟩]
  | _, .noData => [⟨.noData, []⟩]
  | _, .timedOut => [⟨.timeout, []⟩]
  | _, _ => []

/-- One action of the host, when the block is idle and no request is presented (R110): it takes the events it has not
taken yet and reports them in order; else it goes on with the running pseudo-operation; else it takes up the next
entry of its program; else it does nothing. -/
def hostStep (p : Params) (s : State) : State :=
  let d := s.dispatcher
  if d.taken < s.events.length then
    s.setDispatcher { d with
      taken := s.events.length
      console := d.console ++ (s.events.drop d.taken).flatMap (reportEvent p d.report) }
  else
    match d.todo with
    | .issue i r :: rest => (s.setDispatcher { d with todo := rest, report := r }).setReq (some (encodeReq i))
    | .say l :: rest => s.setDispatcher { d with todo := rest, console := d.console ++ [⟨l, []⟩] }
    | [] =>
      match d.program with
      | .pseudo op :: rest => s.setDispatcher { d with program := rest, todo := expand p op }
      | .request w r :: rest => (s.setDispatcher { d with program := rest, report := r }).setReq (some w)
      | [] => s

end Sys2Proof.Machine
end

