-- ==== Sys2Proof/Machine/Cycle.lean ====
section
/-! DEFINITION. How the agents take turns (R10, R11): one cycle of the machine, and the placing of a request. -/

namespace Sys2Proof.Machine

/-- A request word presented to the idle block: decoded (R58) and run; a reserved `op` is refused (R59). The host
withdraws the request when it is accepted (log entry 11). -/
def acceptWord (w : ReqWord) (s : State) : Host.Outcome State Fault Refusal :=
  match decodeReq w with
  | .ok i => exec i (s.setReq none)
  | .error (.reservedOp op) => .refused (.reservedOp op)

/-- The reset input first (R160, R161); while BUSY the running operation goes on and the request port is not looked
at (R11, R44); when idle a presented request is accepted; else the host acts (R110). -/
def cycle (s : State) : Host.Outcome State Fault Refusal :=
  if s.resetLine then applyReset s
  else if s.busy then resume s
  else
    match s.req with
    | some w => acceptWord w s
    | none => .next (hostStep Config.params s)

/-- The request word given by the low `nbits` bits of `w` presented to the block, which is idle and not being reset:
what the very next cycle accepts and runs (log entry 15). -/
def State.present (s : State) (nbits w : Nat) : State :=
  { s with
    req := some (BitVec.ofNat 48 (w % 2 ^ nbits))
    phase := .idle
    inCall := false
    resetLine := false }

end Sys2Proof.Machine
end

