-- ==== Sys2Proof/Machine/Step.lean ====
section
/-! DEFINITION. One step of the machine, and the placing of the next instruction: both are Machine/Cycle.lean's. -/

namespace Sys2Proof.Machine

/-- One step: one operation of the block as far as the transport answers, or one action of the host. -/
def step (s : State) : Host.Outcome State Fault Refusal := cycle s

/-- `s` with the opcode-table word `w` of `nbits` bits presented for the next step. -/
def State.withFetchWord (s : State) (nbits w : Nat) : State := s.present nbits w

end Sys2Proof.Machine
end

