-- ==== Sys2Proof/Safety.lean ====
section
/-! DEFINITION. The terms claims about this machine use: the invariant of the states a run reaches, the premises TA1
and TA2 on the transport (R23), what one drain of a reply looks like (R85, R86), and the trace and event list of a READ
and a READ_ID written from it (R89, R90, R106). -/

namespace Sys2Proof.Machine

/-! ### The invariant -/

/-- The labels of ENCODE. -/
def Phase.inEncode : Phase → Bool
  | .en0 | .en1 | .en2 | .en3 | .en4 | .en5 => true
  | _ => false

/-- The labels of READ. -/
def Phase.inRead : Phase → Bool
  | .rd0 | .rd1 | .rd2 | .rd3 | .rd4 | .rd5 | .rd6 => true
  | _ => false

/-- The labels of READ_ID. -/
def Phase.inReadId : Phase → Bool
  | .id0 | .id1 | .id2 | .id3 | .id4 | .id5 | .id6 | .id7 | .id8 => true
  | _ => false

/-- The labels whose line makes a transport call (R152). -/
def Phase.makesCall : Phase → Bool
  | .idle | .en5 | .rd6 | .id0 | .id7 | .id8 => false
  | _ => true

/-- `SLOT[i]` read. -/
def Slots.read (x : Slots) : Nat → Byte
  | 0 => x.programmerStation
  | 1 => x.peripheralType
  | 2 => x.serialHigh
  | 3 => x.serialLow
  | _ => 0

/-- What `OPEN` holds while ENCODE runs: the target and the packet bytes written so far (R72). -/
def State.openOk (s : State) : Prop :=
  match s.phase with
  | .en1 => s.transport.openTx = some (s.latches.target, [])
  | .en2 => s.transport.openTx = some (s.latches.target, [s.latches.command])
  | .en3 => s.transport.openTx = some (s.latches.target, [s.latches.command, s.latches.data])
  | .en4 => s.transport.openTx =
      some (s.latches.target, [s.latches.command, s.latches.data, s.latches.address])
  | .en5 => s.transport.openTx = none
  | _ => True

/-- The states a run reaches. -/
structure State.Inv (s : State) : Prop where
  /-- the latched `OP` is that of the running operation (R13, R15) -/
  opEncode : s.phase.inEncode = true → s.latches.op = Sys2Proof.opEncode
  opRead : s.phase.inRead = true → s.latches.op = Sys2Proof.opRead
  opReadId : s.phase.inReadId = true → s.latches.op = Sys2Proof.opReadId
  /-- a call is in progress only at a label that makes one (R172) -/
  callAtLabel : s.inCall = true → s.phase.makesCall = true
  /-- the open transaction holds what ENCODE has written (R72) -/
  openPacket : s.openOk
  /-- `T.readByte()` is made only with a byte in the queue (R152) -/
  byteThere : s.phase = .rd2 ∨ s.phase = .id3 → s.transport.rxq ≠ []
  /-- `T.resetTimeoutFlag()` is made only after the flag was seen set (R85, R103) -/
  flagSeen : s.phase = .rd4 ∨ s.phase = .id5 → s.transport.tflag = true
  /-- `IDX` has the values 0 to 4 (R14) -/
  idxBound : s.idx.toNat ≤ 4
  /-- in a running READ_ID a slot no byte has reached is zero (R97, R98) -/
  unfilled : s.phase.inReadId = true → s.phase ≠ .id0 →
    ∀ i, s.idx.toNat ≤ i → s.slots.read i = 0
  /-- the host has taken no more events than there are (R19) -/
  takenBound : s.dispatcher.taken ≤ s.events.length
  /-- between operations the stream is empty or ends with `Done` (R19) -/
  closed : s.phase = .idle → s.events = [] ∨ s.events.getLast? = some .done

/-! ### Premises on the transport (R23), and one drain -/

/-- The receive queue after a call that found `q` in it, but for the call's own removal of a byte. -/
def Answer.queueAfter (x : Sys2Proof.Answer) (q : List Byte) : List Byte := x.rxq.getD q

/-- Premise TA1 of R23 for one request of `n` bytes that found `q` in the queue: after it `len(RXQ) <= n`, stale bytes
the transport kept included. -/
def Answer.honoursCount (x : Sys2Proof.Answer) (n : Nat) (q : List Byte) : Prop := (Answer.queueAfter x q).length ≤ n

/-- Premise TA2 of R23 for one call other than `requestBytes`: the transport leaves the queue to the call's own
effect. Premise TA3, that a call returns, is that the state lists an answer to it. -/
def Answer.keepsQueue (x : Sys2Proof.Answer) : Prop := x.rxq = none

/-- `TFLAG` is clear and the transport sets it in none of the calls it has an answer listed for. -/
def Transport.flagQuiet (t : Transport) : Prop :=
  t.tflag = false ∧ ∀ x ∈ t.answers, Answer.touchesFlag x = false

/-- What the loop of READ or READ_ID sees of the time-out flag while it drains a queue: the answers of
`timeoutFlagSet` in order, the flag at the end, and the transport's answers left. -/
structure Drain where
  flags : List Bool
  tflag : Bool
  rest : List Sys2Proof.Answer
deriving DecidableEq, Repr

/-- One drain of `k` bytes under TA2, the flag being `tf` before the first `readByte` (R85): after each byte the flag
is asked once; set, it is cleared; then the availability is asked. Each call may set the flag (R21), the asking one
after its answer and the clearing one after its clearing too, and uses up one answer. -/
def drain : Nat → Bool → List Sys2Proof.Answer → Drain
  | 0, tf, xs => ⟨[], tf, xs⟩
  | k + 1, tf, xRead :: xAsk :: xs =>
    if tf || Answer.touchesFlag xRead || xAsk.setsFlag then
      match xs with
      | xReset :: xAvail :: xs =>
        let d := drain k (xReset.setsFlagAfter || Answer.touchesFlag xAvail) xs
        ⟨true :: d.flags, d.tflag, d.rest⟩
      | _ => ⟨[true], false, []⟩
    else
      match xs with
      | xAvail :: xs =>
        let d := drain k (xAsk.setsFlagAfter || Answer.touchesFlag xAvail) xs
        ⟨false :: d.flags, d.tflag, d.rest⟩
      | [] => ⟨[false], false, []⟩
  | _ + 1, tf, _ => ⟨[], tf, []⟩

/-- The calls of the loop for the passes `(b, f)`: byte `b` read, `f` answered (R90). -/
def passTrace : List (Byte × Bool) → List Call
  | [] => []
  | (b, f) :: ps =>
    [.readByte b, .timeoutFlagSet f] ++ (if f then [.resetTimeoutFlag] else [])
      ++ [.bytesAvailable ps.length] ++ passTrace ps

/-- The transport trace of `READ target, count` for the passes of its loop (R90). -/
def readTrace (target count : Byte) (ps : List (Byte × Bool)) : List Call :=
  [.requestBytes target count, .bytesAvailable ps.length] ++ passTrace ps

/-- The `TimedOut` of one pass, if any (R85). -/
def passTimeout (f : Bool) : List Event := if f then [.timedOut] else []

/-- The event list of a READ for the passes of its loop (R89). -/
def readEvents (ps : List (Byte × Bool)) : List Event :=
  if ps = [] then [.noData, .done]
  else ps.flatMap (fun p => .byte p.1 :: passTimeout p.2) ++ [.done]

/-- The slots a READ_ID leaves that read the bytes `q`: the first four in order, zero for a byte that did not come
(R98, R99). -/
def slotsOf (q : List Byte) : Slots :=
  { programmerStation := q.getD 0 0, peripheralType := q.getD 1 0,
    serialHigh := q.getD 2 0, serialLow := q.getD 3 0 }

/-- The event list of a READ_ID for the passes of its loop (R106). -/
def readIdEvents (ps : List (Byte × Bool)) : List Event :=
  if ps = [] then [.noData, .done]
  else ps.flatMap (fun p => passTimeout p.2) ++ [(slotsOf (ps.map Prod.fst)).identEvent, .done]

/-! ### What the calls of a READ or READ_ID say of it -/

/-- The byte a call has read. -/
def Call.byteRead : Call → Option Byte
  | .readByte b => some b
  | _ => none

/-- The answer of a call that asked for the flag. -/
def Call.flagAnswer : Call → Option Bool
  | .timeoutFlagSet f => some f
  | _ => none

/-- What READ emits on a call that has returned, up to its next call: the byte read (R84), and `TimedOut` before the
flag that was seen set is reset (R85). -/
def Call.readReports : Call → List Event
  | .readByte b => [.byte b]
  | .timeoutFlagSet f => passTimeout f
  | _ => []

/-- What READ_ID emits on a call that has returned, up to its next call (R103, R104). -/
def Call.readIdReports : Call → List Event
  | .timeoutFlagSet f => passTimeout f
  | _ => []

/-- The label of READ's next call, by the call before it (R81); of ENCODE's calls READ makes none. -/
def Call.readNext : Call → Phase
  | .requestBytes _ _ => .rd1
  | .bytesAvailable _ => .rd2
  | .readByte _ => .rd3
  | .timeoutFlagSet f => if f then .rd4 else .rd5
  | .resetTimeoutFlag => .rd5
  | .beginTransaction _ | .writeByte _ | .endTransaction => .rd0

/-- The label of READ_ID's next call, by the call before it (R96); of ENCODE's calls READ_ID makes none. -/
def Call.readIdNext : Call → Phase
  | .requestBytes _ _ => .id2
  | .bytesAvailable _ => .id3
  | .readByte _ => .id4
  | .timeoutFlagSet f => if f then .id5 else .id6
  | .resetTimeoutFlag => .id6
  | .beginTransaction _ | .writeByte _ | .endTransaction => .id1

/-- An operation that has ended, or that stands at a call which has not returned (R11, R172). -/
def State.endedOrWaits (s : State) : Prop :=
  s.phase = .idle ∨ (s.inCall = true ∧ s.phase.makesCall = true ∧ s.transport.answers = [])

/-- The same state with these answers of the transport to come. -/
def State.withAnswers (s : State) (xs : List Sys2Proof.Answer) : State :=
  { s with transport := { s.transport with answers := xs } }

/-- `u` has the events of `s` and some more, `TimedOut` not among them. -/
def State.addsNoTimeout (s u : State) : Prop := ∃ es, u.events = s.events ++ es ∧ Event.timedOut ∉ es

end Sys2Proof.Machine
end

