-- ==== Sys2Proof/Certificates/Slice0/Obligations.lean ====
section
/-! DEFINITION. The statements for the provers, from the numbered rules of spec/. Each docstring names the rules. -/

open Sys2Proof Sys2Proof.Machine

/-! ### Request and response words -/

/-- Request words written out from R56 and R58 (vectors E1, RV4, X3, X1 of 95_test_vectors.md and the ignored-field
word after B1) stand for the operations the spec writes beside them. -/
def Obligations.SampleRequestWordsDecode : Prop :=
  decodeReq 0x002406100700 = .ok (.encode 0x24 0x06 0x10 0x07 0x00) ∧
  decodeReq 0x0024061007FF = .ok (.encode 0x24 0x06 0x10 0x07 0xFF) ∧
  decodeReq 0x015100000004 = .ok (.read 0x51 0x00 0x00 0x00 0x04) ∧
  decodeReq 0x022400000000 = .ok (.readId 0x24 0x00 0x00 0x00 0x00) ∧
  decodeReq 0x030000000000 = .error (.reservedOp 0x03)

/-- R56, R58: decoding the request word of an operation gives the operation, with every field at every value. -/
def Obligations.DecodeOfEncode : Prop :=
  ∀ i : Instr, decodeReq (encodeReq i) = .ok i

/-- R56, R58, R60: an accepted request word is the request word of the operation it stands for: no bit is lost, the
ignored fields' bits included. -/
def Obligations.EncodeOfDecode : Prop :=
  ∀ (w : ReqWord) (i : Instr), decodeReq w = .ok i → encodeReq i = w

/-- R58, R59: a request word stands for an operation exactly when its `op` is `0x00`, `0x01` or `0x02`, and the
operation is chosen by `op` alone. -/
def Obligations.OpSelectsOperation : Prop :=
  ∀ w : ReqWord,
    (match decodeReq w with
      | .ok i => (reqOp w).toNat ≤ 2 ∧ i.op = reqOp w
      | .error (.reservedOp op) => 3 ≤ (reqOp w).toNat ∧ op = reqOp w)

/-- R59: a request with `op` in `0x03..0xFF` presented to the idle block is refused under its name: the outcome is no
state, so there is no trace and no event. -/
def Obligations.ReservedRequestRefused : Prop :=
  ∀ (s : State) (w : ReqWord), s.resetLine = false → s.phase = .idle → s.req = some w → 3 ≤ (reqOp w).toNat →
    step s = .refused (.reservedOp (reqOp w))

/-- R57: the five response words; the kind is at most `0x04`; and two events with one response word are one event. -/
def Obligations.ResponseWordsOfEvents : Prop :=
  (∀ b : Byte, ((Event.byte b).rsp).toNat = b.toNat) ∧
  Event.timedOut.rsp = 0x0100000000 ∧ Event.noData.rsp = 0x0200000000 ∧ Event.done.rsp = 0x0400000000 ∧
  (∀ (ty st : Byte) (n : BitVec 16), ((Event.ident ty st n).rsp).toNat =
    3 * 2 ^ 32 + ty.toNat * 2 ^ 24 + st.toNat * 2 ^ 16 + n.toNat) ∧
  (∀ e : Event, e.rsp.toNat < 5 * 2 ^ 32) ∧
  (∀ e₁ e₂ : Event, e₁.rsp = e₂.rsp → e₁ = e₂)

/-! ### Steps, reset, the request port -/

/-- R15, R44, R58: the word presented to the idle block is decoded and run. That the word is withdrawn at acceptance
is the model's choice (log entry 11), and so is `withFetchWord`, of which the second clause says the same (log
entry 15). -/
def Obligations.StepRunsPresentedOperation : Prop :=
  (∀ (s : State) (w : ReqWord) (i : Instr), s.resetLine = false → s.phase = .idle → s.req = some w →
    decodeReq w = .ok i → step s = exec i (s.setReq none)) ∧
  (∀ (s : State) (w : ReqWord) (i : Instr), decodeReq w = .ok i →
    step (s.withFetchWord 48 w.toNat) =
      exec i { s with req := none, phase := .idle, inCall := false, resetLine := false })

/-- R24, R160: after reset `PHASE` is `IDLE`, `BUSY` is 0 and the response stream is empty. -/
def Obligations.ResetLeavesIdle : Prop :=
  State.reset.phase = .idle ∧ State.reset.busy = false ∧ State.reset.events = []

/-- R160, R162: the reset input on an idle block leaves `PHASE` at `IDLE` and the stream empty, and does not reach
the transport. -/
def Obligations.ResetInputOnIdleBlock : Prop :=
  ∀ s : State, s.resetLine = true → s.phase = .idle →
    ∃ u, step s = .next u ∧ u.phase = .idle ∧ u.busy = false ∧ u.events = [] ∧ u.transport = s.transport

/-- R161: a reset is refused exactly while `BUSY`. -/
def Obligations.ResetRefusedExactlyWhileBusy : Prop :=
  ∀ s : State, s.resetLine = true → (step s = .refused .resetWhileBusy ↔ s.busy = true)

/-- A request put to a block that is `BUSY` is not accepted (R11). That `exec` then answers the same state is the
model's choice (log entry 13; U15 asks for no step at all). -/
def Obligations.RequestWhileBusyNotAccepted : Prop :=
  ∀ (i : Instr) (s : State), s.busy = true → exec i s = .next s

/-- R11, R44: while `BUSY`, what stands on the request port changes nothing of the step, and the port, the latches
and the host are as before. -/
def Obligations.RunningOperationIgnoresPort : Prop :=
  ∀ (s u : State) (r : Option ReqWord), s.resetLine = false → s.busy = true → step s = .next u →
    step (s.setReq r) = .next (u.setReq r) ∧ u.req = s.req ∧ u.latches = s.latches ∧
      u.dispatcher = s.dispatcher

/-- R13: at acceptance the six latches hold the request's six fields, and they hold them as long as the operation
runs. -/
def Obligations.LatchesHoldTheRequest : Prop :=
  (∀ (s u : State) (w : ReqWord) (i : Instr), s.phase = .idle → decodeReq w = .ok i → exec i s = .next u →
    u.latches = { op := reqOp w, target := reqTarget w, command := reqCommand w, address := reqAddress w,
                  data := reqData w, count := reqCount w }) ∧
  (∀ s u : State, s.resetLine = false → s.busy = true → step s = .next u → u.latches = s.latches)

/-- The idle block with nothing presented, nothing to report and nothing to issue stays as it is. The model's choice
(log entry 12; the spec has no word on such a step). -/
def Obligations.IdleMachineStays : Prop :=
  ∀ s : State, s.resetLine = false → s.phase = .idle → s.req = none →
    s.dispatcher.taken = s.events.length → s.dispatcher.todo = [] → s.dispatcher.program = [] →
    step s = .next s

/-! ### ENCODE -/

/-- R71 (R73, R75; R76, the spec's own inference from R71): from an idle block, if the transport's five calls return,
whatever else it does in them, ENCODE completes with exactly this trace and the event list `[Done]`; the packet
`[command, data, address]` is handed to the bus for `target`. The second clause is R76's worked example. -/
def Obligations.EncodeCompletes : Prop :=
  (∀ (s : State) (target command address data count : Byte) (xs rest : List Answer), s.phase = .idle →
    xs.length = 5 → s.transport.answers = xs ++ rest →
    exec (.encode target command address data count) s = .next
      { s with
        phase := .idle
        inCall := false
        latches := ⟨0x00, target, command, address, data, count⟩
        events := s.events ++ [.done]
        trace := s.trace ++ [.beginTransaction target, .writeByte command, .writeByte data, .writeByte address,
          .endTransaction]
        transport := { s.transport with
          tflag := s.transport.tflag || xs.any Answer.touchesFlag
          rxq := xs.foldl (fun q x => Answer.queueAfter x q) s.transport.rxq
          openTx := none
          wire := s.transport.wire ++ [(target, [command, data, address])]
          answers := rest } }) ∧
  (encodeReq (.encode 0x24 0x06 0x10 0x07 0x00) = 0x002406100700 ∧ packetWord 0x06 0x10 0x07 = 0x060710 ∧
    ∀ (s : State) (xs : List Answer), s.phase = .idle → xs.length = 5 → s.transport.answers = xs →
      ∃ u, exec (.encode 0x24 0x06 0x10 0x07 0x00) s = .next u ∧
        u.trace = s.trace ++ [.beginTransaction 0x24, .writeByte 0x06, .writeByte 0x07, .writeByte 0x10,
          .endTransaction] ∧
        u.transport.wire = s.transport.wire ++ [(0x24, [0x06, 0x07, 0x10])] ∧ u.events = s.events ++ [.done])

/-- R75, R172: if only `k` of ENCODE's five calls return, ENCODE stays at the label of the next one: `BUSY`, with the
first `k` calls in the trace, no event, and nothing handed to the bus. That the pending call itself is not in the
trace is the model's choice (log entry 17). -/
def Obligations.EncodeStaysAtPendingCall : Prop :=
  ∀ (s : State) (target command address data count : Byte), s.phase = .idle →
    s.transport.answers.length < 5 →
    ∃ u, exec (.encode target command address data count) s = .next u ∧
      some u.phase = [Phase.en0, .en1, .en2, .en3, .en4][s.transport.answers.length]? ∧
      u.inCall = true ∧ u.events = s.events ∧ u.transport.wire = s.transport.wire ∧
      u.trace = s.trace ++ [Call.beginTransaction target, .writeByte command, .writeByte data,
        .writeByte address].take s.transport.answers.length

/-- R71, R74: what ENCODE changes, whenever it gives a next state: the latches, `PHASE`, the event list by at most
`[Done]`, the trace, and the transport; of the bus it changes at most that one packet for `target` is handed over.
`SLOT`, `IDX`, the ports and the host are unchanged, and `TFLAG` is neither asked for nor cleared. -/
def Obligations.EncodeFrame : Prop :=
  ∀ (s u : State) (target command address data count : Byte),
    exec (.encode target command address data count) s = .next u →
    u.slots = s.slots ∧ u.idx = s.idx ∧ u.req = s.req ∧ u.resetLine = s.resetLine ∧
    u.dispatcher = s.dispatcher ∧ u.transport.draws = s.transport.draws ∧
    (u.transport.wire = s.transport.wire ∨
      u.transport.wire = s.transport.wire ++ [(target, [command, data, address])]) ∧
    (u.events = s.events ∨ u.events = s.events ++ [.done]) ∧
    (s.transport.tflag = true → u.transport.tflag = true) ∧
    ((∀ x ∈ s.transport.answers, Answer.keepsQueue x) → u.transport.rxq = s.transport.rxq) ∧
    ∃ cs, u.trace = s.trace ++ cs ∧ Call.resetTimeoutFlag ∉ cs ∧ ∀ f, Call.timeoutFlagSet f ∉ cs

/-! ### READ -/

/-- R83: the first `bytesAvailable` returns 0: READ emits `NoData`, asks for no byte and no flag, and ends; a set
`TFLAG` stays set. That the queue counted is the queue the call leaves is log entry 4. -/
def Obligations.ReadNoDataCompletes : Prop :=
  ∀ (s : State) (target command address data count : Byte) (x₀ x₁ : Answer) (rest : List Answer),
    s.phase = .idle → s.transport.answers = x₀ :: x₁ :: rest →
    Answer.queueAfter x₁ (Answer.queueAfter x₀ s.transport.rxq) = [] →
    exec (.read target command address data count) s = .next
      { s with
        phase := .idle
        inCall := false
        latches := ⟨0x01, target, command, address, data, count⟩
        events := s.events ++ [.noData, .done]
        trace := s.trace ++ [.requestBytes target count, .bytesAvailable 0]
        transport := { s.transport with
          tflag := s.transport.tflag || Answer.touchesFlag x₀ || Answer.touchesFlag x₁
          rxq := []
          answers := rest } }

/-- R81 to R86 with R90, under TA2 and enough answers: the whole state a READ leaves, for any number of bytes offered
(fewer or more than `count`), any bytes, and a time-out flag set before it or in any call. Each byte is reported, then
the flag is asked; set, `TimedOut` is reported and the flag is cleared; the loop goes on until nothing is available.
When in a call the transport sets the flag is as log entry 4 says. -/
def Obligations.ReadCompletes : Prop :=
  ∀ (s : State) (target command address data count : Byte) (x₀ x₁ : Answer) (rest : List Answer) (q : List Byte),
    s.phase = .idle → s.transport.answers = x₀ :: x₁ :: rest → (∀ x ∈ x₁ :: rest, Answer.keepsQueue x) →
    q = Answer.queueAfter x₀ s.transport.rxq → 4 * q.length ≤ rest.length →
    let d := drain q.length (s.transport.tflag || Answer.touchesFlag x₀ || Answer.touchesFlag x₁) rest
    exec (.read target command address data count) s = .next
      { s with
        phase := .idle
        inCall := false
        latches := ⟨0x01, target, command, address, data, count⟩
        events := s.events ++ readEvents (q.zip d.flags)
        trace := s.trace ++ readTrace target count (q.zip d.flags)
        transport := { s.transport with tflag := d.tflag, rxq := [], answers := d.rest } }

/-- R90 (the spec's own inference from R81): under TA2 the trace of a `READ t, c` that ends is the law's, for the `k`
bytes offered and the flags `fs` the transport answers: 2 calls for `k = 0`, else `2 + 3k` and one for each true flag.
The last clause is the rule's worked example. -/
def Obligations.ReadTraceLaw : Prop :=
  (∀ (s u : State) (target command address data count : Byte) (x₀ : Answer) (rest : List Answer) (q : List Byte),
    s.phase = .idle → s.transport.answers = x₀ :: rest → (∀ x ∈ rest, Answer.keepsQueue x) →
    q = Answer.queueAfter x₀ s.transport.rxq →
    exec (.read target command address data count) s = .next u → u.phase = .idle →
    ∃ fs : List Bool, fs.length = q.length ∧ u.trace = s.trace ++ readTrace target count (q.zip fs) ∧
      (readTrace target count (q.zip fs)).length = 2 + 3 * q.length + fs.count true) ∧
  (∀ (s : State) (x : Answer), s.phase = .idle → x = ⟨false, false, some [0x5A]⟩ → s.transport.tflag = false →
    s.transport.answers = x :: List.replicate 4 ⟨false, false, none⟩ →
    encodeReq (.read 0x24 0x00 0x00 0x00 0x01) = 0x012400000001 ∧
    ∃ u, exec (.read 0x24 0x00 0x00 0x00 0x01) s = .next u ∧
      u.trace = s.trace ++ [.requestBytes 0x24 1, .bytesAvailable 1, .readByte 0x5A, .timeoutFlagSet false,
        .bytesAvailable 0] ∧
      ∃ es, u.events = s.events ++ es ∧ es = [.byte 0x5A, .done] ∧
        es.map Event.rsp = [0x000000005A, 0x0400000000])

/-- R89, R148 (the spec's own inferences from R81): whatever the transport does (TA1 and TA2 not assumed), the events
of a READ that ends have one of the two shapes: `[NoData, Done]`, or for one or more passes the byte followed by at
most one `TimedOut`, then `Done`. The passes are those of its calls: the bytes its `readByte`s gave and the answers of
its `timeoutFlagSet`s. -/
def Obligations.ReadEventShape : Prop :=
  ∀ (s u : State) (target command address data count : Byte), s.phase = .idle →
    exec (.read target command address data count) s = .next u → u.phase = .idle →
    ∃ (ps : List (Byte × Bool)) (cs : List Call), u.events = s.events ++ readEvents ps ∧ u.trace = s.trace ++ cs ∧
      cs.filterMap Call.byteRead = ps.map Prod.fst ∧ cs.filterMap Call.flagAnswer = ps.map Prod.snd

/-- R80, R81: what READ leaves unchanged, whenever it gives a next state: `SLOT`, `IDX`, the ports, the host, the
open write transaction and what was handed to the bus. -/
def Obligations.ReadFrame : Prop :=
  ∀ (s u : State) (target command address data count : Byte),
    exec (.read target command address data count) s = .next u →
    u.slots = s.slots ∧ u.idx = s.idx ∧ u.req = s.req ∧ u.resetLine = s.resetLine ∧
    u.dispatcher = s.dispatcher ∧ u.transport.draws = s.transport.draws ∧
    u.transport.openTx = s.transport.openTx ∧ u.transport.wire = s.transport.wire

/-- R91: no time-out is reported again unless the transport sets the flag again. First clause: an operation `i` has
reported a time-out and has reset the flag (`w`: the answers up to `x`, that of the reset call, carry it to just behind
`T.resetTimeoutFlag()`), and the transport sets the flag neither later in that call nor in any later call (`ys`): the
rest of the operation reports none. It leaves a quiet flag, and from there on, over any number of operations and steps,
the other two clauses apply: an operation, and a step, that finds a quiet flag reports no time-out and leaves a quiet
flag. (A step that has to draw a free answer is left out: the transport may set the flag in it.) -/
def Obligations.ObservedTimeoutIsNotReportedAgain : Prop :=
  (∀ (i : Instr) (s u w : State) (xs ys : List Answer) (x : Answer) (cs : List Call), s.phase = .idle →
    s.transport.answers = xs ++ [x] ++ ys → x.setsFlagAfter = false → (∀ y ∈ ys, Answer.touchesFlag y = false) →
    exec i (s.withAnswers (xs ++ [x])) = .next w → w.trace = s.trace ++ cs ++ [.resetTimeoutFlag] →
    exec i s = .next u → w.addsNoTimeout u ∧ u.transport.flagQuiet) ∧
  (∀ (i : Instr) (s u : State), s.phase = .idle → s.transport.flagQuiet → exec i s = .next u →
    s.addsNoTimeout u ∧ u.transport.flagQuiet) ∧
  (∀ s u : State, s.Inv → s.resetLine = false → s.transport.flagQuiet →
    (s.busy = true → s.transport.answers ≠ []) → step s = .next u → s.addsNoTimeout u ∧ u.transport.flagQuiet)

/-- R88 (c), R168 (c) (the spec's own inference from R81): `TFLAG` set before a READ that gets a byte: `TimedOut` is
reported after the first byte, and if the transport sets the flag in no call it is reported once and the flag is clear
afterwards. -/
def Obligations.StaleTimeoutReportedAfterFirstByte : Prop :=
  ∀ (s : State) (target command address data count : Byte) (x₀ : Answer) (rest : List Answer) (b : Byte)
    (q : List Byte),
    s.phase = .idle → s.transport.tflag = true → s.transport.answers = x₀ :: rest →
    (∀ x ∈ x₀ :: rest, Answer.touchesFlag x = false) → (∀ x ∈ rest, Answer.keepsQueue x) →
    Answer.queueAfter x₀ s.transport.rxq = b :: q → 5 + 4 * q.length ≤ rest.length →
    ∃ u, exec (.read target command address data count) s = .next u ∧ u.phase = .idle ∧
      u.events = s.events ++ [.byte b, .timedOut] ++ q.map .byte ++ [.done] ∧ u.transport.tflag = false

/-- R172: with no answer from the transport, READ stays at `RD0` and READ_ID at `ID1`: `BUSY`, no call in the trace,
no event. That the pending call is not in the trace is the model's choice (log entry 17). -/
def Obligations.ReadsStayAtPendingRequest : Prop :=
  ∀ (s : State) (target command address data count : Byte), s.phase = .idle → s.transport.answers = [] →
    exec (.read target command address data count) s = .next
      { s with phase := .rd0, inCall := true, latches := ⟨0x01, target, command, address, data, count⟩ } ∧
    exec (.readId target command address data count) s = .next
      { s with phase := .id1, inCall := true, latches := ⟨0x02, target, command, address, data, count⟩,
               slots := ⟨0, 0, 0, 0⟩, idx := 0 }

/-- R172 in the middle of a READ (the labels RD1 to RD5 included): a READ that has not ended stands at the label of
the call after its last one, with that call pending and no answer left; its events so far are the reports of its calls
so far, without `NoData` and without `Done`. That the pending call is not in the trace is the model's choice (log
entry 17); that `TimedOut` has been emitted while `T.resetTimeoutFlag()` is pending is DEDUCED (log entry 24). -/
def Obligations.ReadWaitsAtAnyCall : Prop :=
  ∀ (s u : State) (target command address data count : Byte), s.phase = .idle →
    exec (.read target command address data count) s = .next u → u.phase ≠ .idle →
    u.inCall = true ∧ u.transport.answers = [] ∧ ∃ cs, u.trace = s.trace ++ cs ∧
      u.phase = (cs.getLast?.map Call.readNext).getD .rd0 ∧ u.events = s.events ++ cs.flatMap Call.readReports

/-- R61, R88 (a) under TA1 and TA2 (R23): a READ reads and reports at most `count` bytes, and with `count = 0` its
events are `[NoData, Done]` (R88 (a), the spec's own inference from R81); a READ_ID reads at most 4 bytes, so none is
discarded (R99). -/
def Obligations.HonouredCountBoundsReply : Prop :=
  ∀ (s u : State) (target command address data count : Byte) (x₀ : Answer) (rest : List Answer), s.phase = .idle →
    s.transport.answers = x₀ :: rest → (∀ x ∈ rest, Answer.keepsQueue x) →
    (Answer.honoursCount x₀ count.toNat s.transport.rxq →
      exec (.read target command address data count) s = .next u →
      ∃ cs es, u.trace = s.trace ++ cs ∧ (cs.filterMap Call.byteRead).length ≤ count.toNat ∧
        u.events = s.events ++ es ∧
        es.filter (fun e => e ∉ [.noData, .timedOut, .done]) = (cs.filterMap Call.byteRead).map .byte ∧
        (count = 0 → u.phase = .idle → es = [.noData, .done])) ∧
    (Answer.honoursCount x₀ 4 s.transport.rxq →
      exec (.readId target command address data count) s = .next u →
      ∃ cs, u.trace = s.trace ++ cs ∧ (cs.filterMap Call.byteRead).length ≤ 4 ∧
        u.idx.toNat = (cs.filterMap Call.byteRead).length)

/-! ### READ_ID -/

/-- R102 (the spec's decision D12, log entry 20): zero bytes available: READ_ID emits `NoData`, no `Ident`, reads
nothing, asks for no flag. That the queue counted is the queue the call leaves is log entry 4. -/
def Obligations.ReadIdNoDataCompletes : Prop :=
  ∀ (s : State) (target command address data count : Byte) (x₀ x₁ : Answer) (rest : List Answer),
    s.phase = .idle → s.transport.answers = x₀ :: x₁ :: rest →
    Answer.queueAfter x₁ (Answer.queueAfter x₀ s.transport.rxq) = [] →
    exec (.readId target command address data count) s = .next
      { s with
        phase := .idle
        inCall := false
        latches := ⟨0x02, target, command, address, data, count⟩
        slots := ⟨0, 0, 0, 0⟩
        idx := 0
        events := s.events ++ [.noData, .done]
        trace := s.trace ++ [.requestBytes target 4, .bytesAvailable 0]
        transport := { s.transport with
          tflag := s.transport.tflag || Answer.touchesFlag x₀ || Answer.touchesFlag x₁
          rxq := []
          answers := rest } }

/-- R96 to R101, R103, R104, under TA2 and enough answers: the whole state a READ_ID leaves, for any number of bytes
offered: the first four fill the slots, a missing one is 0, a surplus one is read and discarded; the events are the
`TimedOut`s, then one `Ident`, then `Done`. When in a call the transport sets the flag is as log entry 4 says. -/
def Obligations.ReadIdCompletes : Prop :=
  ∀ (s : State) (target command address data count : Byte) (x₀ x₁ : Answer) (rest : List Answer) (q : List Byte),
    s.phase = .idle → s.transport.answers = x₀ :: x₁ :: rest → (∀ x ∈ x₁ :: rest, Answer.keepsQueue x) →
    q = Answer.queueAfter x₀ s.transport.rxq → 4 * q.length ≤ rest.length →
    let d := drain q.length (s.transport.tflag || Answer.touchesFlag x₀ || Answer.touchesFlag x₁) rest
    exec (.readId target command address data count) s = .next
      { s with
        phase := .idle
        inCall := false
        latches := ⟨0x02, target, command, address, data, count⟩
        slots := slotsOf q
        idx := BitVec.ofNat 3 (min q.length 4)
        events := s.events ++ readIdEvents (q.zip d.flags)
        trace := s.trace ++ readTrace target 4 (q.zip d.flags)
        transport := { s.transport with tflag := d.tflag, rxq := [], answers := d.rest } }

/-- R106 (the spec's own inference from R96 and R81): call for call, READ_ID makes the transport trace of `READ
target, 4`, whatever the transport does: after either, trace and transport are the same, and either both have ended or
both wait. -/
def Obligations.ReadIdTraceIsReadTrace : Prop :=
  ∀ (s : State) (target c₁ a₁ d₁ c₂ a₂ d₂ n : Byte), s.phase = .idle →
    ∃ u v, exec (.read target c₁ a₁ d₁ 4) s = .next u ∧ exec (.readId target c₂ a₂ d₂ n) s = .next v ∧
      v.trace = u.trace ∧ v.transport = u.transport ∧ (v.phase = .idle ↔ u.phase = .idle) ∧
      v.inCall = u.inCall

/-- R106, R148 (c) (the spec's own inferences from R96): whatever the transport does (TA1 and TA2 not assumed), the
events of a READ_ID that ends are `[NoData, Done]`, or for one or more passes a `TimedOut` for each flag seen set, then
one `Ident` made of the bytes read, then `Done`; and the slots hold the first four of those bytes. -/
def Obligations.ReadIdEventShape : Prop :=
  ∀ (s u : State) (target command address data count : Byte), s.phase = .idle →
    exec (.readId target command address data count) s = .next u → u.phase = .idle →
    ∃ (ps : List (Byte × Bool)) (cs : List Call), u.events = s.events ++ readIdEvents ps ∧ u.trace = s.trace ++ cs ∧
      cs.filterMap Call.byteRead = ps.map Prod.fst ∧ cs.filterMap Call.flagAnswer = ps.map Prod.snd ∧
      u.slots = slotsOf (ps.map Prod.fst)

/-- R172 in the middle of a READ_ID (the labels ID2 to ID6 included): a READ_ID that has not ended stands at the label
of the call after its last one, with that call pending and no answer left; its events so far are the `TimedOut`s
alone, and the slots hold the bytes read so far. That the pending call is not in the trace is the model's choice (log
entry 17); that `TimedOut` has been emitted while `T.resetTimeoutFlag()` is pending is DEDUCED (log entry 24). -/
def Obligations.ReadIdWaitsAtAnyCall : Prop :=
  ∀ (s u : State) (target command address data count : Byte), s.phase = .idle →
    exec (.readId target command address data count) s = .next u → u.phase ≠ .idle →
    u.inCall = true ∧ u.transport.answers = [] ∧ ∃ cs, u.trace = s.trace ++ cs ∧
      u.phase = (cs.getLast?.map Call.readIdNext).getD .id1 ∧ u.events = s.events ++ cs.flatMap Call.readIdReports ∧
      u.slots = slotsOf (cs.filterMap Call.byteRead) ∧
      u.idx.toNat = min (cs.filterMap Call.byteRead).length 4

/-- R97: READ_ID does not depend on what an earlier one left in `SLOT` and `IDX`, and whatever state it gives, a slot
no byte of this READ_ID has reached is 0. -/
def Obligations.ReadIdClearsSlots : Prop :=
  ∀ (s : State) (x : Slots) (j : BitVec 3) (target command address data count : Byte), s.phase = .idle →
    exec (.readId target command address data count) { s with slots := x, idx := j } =
      exec (.readId target command address data count) s ∧
    ∀ u, exec (.readId target command address data count) s = .next u →
      ∀ i, u.idx.toNat ≤ i → u.slots.read i = 0

/-- R95, R96: what READ_ID leaves unchanged, whenever it gives a next state: the ports, the host, the open write
transaction and what was handed to the bus; and it emits no `Byte` event (R104). -/
def Obligations.ReadIdFrame : Prop :=
  ∀ (s u : State) (target command address data count : Byte),
    exec (.readId target command address data count) s = .next u →
    u.req = s.req ∧ u.resetLine = s.resetLine ∧ u.dispatcher = s.dispatcher ∧
    u.transport.draws = s.transport.draws ∧
    u.transport.openTx = s.transport.openTx ∧ u.transport.wire = s.transport.wire ∧
    ∃ es, u.events = s.events ++ es ∧ ∀ b, Event.byte b ∉ es

/-- R100 (that it fits 16 bits is the rule's own inference): the line ID7 computes the serial from `SLOT[2]` and
`SLOT[3]`; it is `high * 255 + low` exactly, in 0..65280; `(h, 255)` and `(h+1, 0)` give one serial for every `h` in
0..254, `(0, 255)` and `(1, 0)` both 255. -/
def Obligations.SerialArithmetic : Prop :=
  (∀ s : State, s.phase = .id7 → line s = .moved { s with
    phase := .id8
    events := s.events ++ [.ident s.slots.peripheralType s.slots.programmerStation
      (serialOf s.slots.serialHigh s.slots.serialLow)] }) ∧
  (∀ h l : Byte, (serialOf h l).toNat = h.toNat * 255 + l.toNat ∧ (serialOf h l).toNat ≤ 65280) ∧
  (serialOf 0xFF 0xFF).toNat = 65280 ∧
  (∀ h : Byte, h.toNat ≤ 254 → serialOf h 255 = serialOf (h + 1) 0) ∧
  serialOf 0 255 = 255 ∧ serialOf 1 0 = 255

/-! ### All operations -/

/-- R11, R172: from an idle block every operation gives a next state, and so does every step of a `BUSY` block (which
meets the invariant): the operation has ended, or it waits at a call the transport has not answered. -/
def Obligations.OperationEndsOrWaits : Prop :=
  (∀ (i : Instr) (s : State), s.phase = .idle → ∃ u, exec i s = .next u ∧ u.endedOrWaits) ∧
  (∀ s : State, s.Inv → s.resetLine = false → s.busy = true → ∃ u, step s = .next u ∧ u.endedOrWaits)

/-- R19: the events an operation adds are closed by exactly one `Done`, its last; while it still runs it has emitted
none. The second clause says it of the steps of a `BUSY` block: a step adds one `Done`, as its last event, exactly when
it ends the operation. -/
def Obligations.OneDonePerOperation : Prop :=
  (∀ (i : Instr) (s u : State), s.phase = .idle → exec i s = .next u →
    ∃ es, Event.done ∉ es ∧
      u.events = s.events ++ es ++ (if u.phase = .idle then [.done] else [])) ∧
  (∀ s u : State, s.resetLine = false → s.busy = true → step s = .next u →
    ∃ es, Event.done ∉ es ∧
      u.events = s.events ++ es ++ (if u.phase = .idle then [.done] else []))

/-- R11, R172: a waiting operation goes on where it stands. First clause: an operation that waits for want of answers
(`w`), given the answers `ys`, comes in one step to what it would have come to with all of them at once. Second clause:
the same of a `BUSY` block that waits again. Steps and the list of answers are the model's (log entries 1 and 2). -/
def Obligations.WaitingOperationGoesOn : Prop :=
  (∀ (i : Instr) (s w : State) (xs ys : List Answer), s.phase = .idle → s.resetLine = false →
    s.transport.answers = xs ++ ys → ys ≠ [] → exec i (s.withAnswers xs) = .next w → w.busy = true →
    step (w.withAnswers ys) = exec i s) ∧
  (∀ (s w : State) (xs ys : List Answer), s.busy = true → s.resetLine = false →
    s.transport.answers = xs ++ ys → xs ≠ [] → ys ≠ [] → step (s.withAnswers xs) = .next w → w.busy = true →
    step (w.withAnswers ys) = step s)

/-- R172, U11, U13, U14: a step of a block whose call is pending with no answer listed: the transport's answer is a
free value (log entry 3), and the operation goes on with it, or there is none and the block stays as it is but for the
model's own count of draws. -/
def Obligations.PendingCallTakesFreeAnswer : Prop :=
  ∀ s : State, s.resetLine = false → s.inCall = true → s.phase.makesCall = true → s.transport.answers = [] →
    let t := s.setTransport { s.transport with draws := s.transport.draws + 1 }
    step s = match Config.freeAnswer s.transport.draws with
      | none => .next t
      | some x => step (t.withAnswers [x])

/-- One call at a time (R11, R15), in the model's form: each call that returns takes one listed answer of the
transport, in order (log entry 2, DESIGN CHOICE), and enters the trace then (log entry 17, DESIGN CHOICE): an
operation makes as many calls as answers are used up. -/
def Obligations.OneAnswerPerCall : Prop :=
  ∀ (i : Instr) (s u : State), s.phase = .idle → exec i s = .next u →
    ∃ xs cs, s.transport.answers = xs ++ u.transport.answers ∧ u.trace = s.trace ++ cs ∧ cs.length = xs.length

/-- R12: what an operation does depends on the request and the transport alone: from two idle states with the same
transport it adds the same calls and the same events and leaves the same transport, whatever registers, stream and
trace the two hold. -/
def Obligations.OperationsKeepNothing : Prop :=
  ∀ (i : Instr) (s₁ s₂ u₁ : State), s₁.phase = .idle → s₂.phase = .idle → s₁.transport = s₂.transport →
    exec i s₁ = .next u₁ →
    ∃ u₂ es cs, exec i s₂ = .next u₂ ∧ u₂.transport = u₁.transport ∧ u₂.phase = u₁.phase ∧
      u₂.latches = u₁.latches ∧ u₁.events = s₁.events ++ es ∧ u₂.events = s₂.events ++ es ∧
      u₁.trace = s₁.trace ++ cs ∧ u₂.trace = s₂.trace ++ cs

/-- R60: a field an operation does not read has no effect but on its own latch: with other values in such fields the
operation leads to the same state but for the latches of those fields. -/
def Obligations.IgnoredFieldsHaveNoEffect : Prop :=
  ∀ (s : State) (t c a d n c' a' d' n' : Byte), s.phase = .idle →
    (∃ u, exec (.encode t c a d n) s = .next u ∧
      exec (.encode t c a d n') s = .next { u with latches := { u.latches with count := n' } }) ∧
    (∃ u, exec (.read t c a d n) s = .next u ∧
      exec (.read t c' a' d' n) s = .next
        { u with latches := { u.latches with command := c', address := a', data := d' } }) ∧
    (∃ u, exec (.readId t c a d n) s = .next u ∧
      exec (.readId t c' a' d' n') s = .next
        { u with latches := { u.latches with command := c', address := a', data := d', count := n' } })

/-- R21, R41: `TFLAG`, once set, is clear after a step only if the step called `T.resetTimeoutFlag()`. -/
def Obligations.TimeoutFlagIsSticky : Prop :=
  ∀ s u : State, step s = .next u → s.transport.tflag = true → u.transport.tflag = false →
    ∃ cs, u.trace = s.trace ++ cs ∧ Call.resetTimeoutFlag ∈ cs

/-- R12, R19, R40: but for a reset, a step only appends to the response stream and to the transport trace. -/
def Obligations.StreamAndTraceOnlyGrow : Prop :=
  ∀ s u : State, s.resetLine = false → step s = .next u →
    (∃ es, u.events = s.events ++ es) ∧ ∃ cs, u.trace = s.trace ++ cs

/-! ### The invariant -/

/-- The state after reset meets the invariant. -/
def Obligations.ResetMeetsInv : Prop := State.reset.Inv

/-- Every step keeps the invariant: the latched `OP` fits the running label, the open transaction holds exactly what
ENCODE has written, a byte is there where one is read, `IDX` is at most 4, an unfilled slot is 0, and between
operations the stream is empty or ends with `Done` (R13, R14, R19, R72, R85, R97, R152). -/
def Obligations.StepKeepsInv : Prop :=
  ∀ s u : State, s.Inv → step s = .next u → u.Inv

/-- R152, U10: in a state that meets the invariant no step faults: `readByte` is never asked of an empty queue, and
`writeByte` and `endTransaction` never come outside a write transaction. -/
def Obligations.InvExcludesFaults : Prop :=
  ∀ (s : State) (f : Fault), s.Inv → step s ≠ .fault f

/-! ### The host -/

/-- R112: SET_FAN sends `min(duty, 255)` to the holder and does nothing else; the clamp saturates. -/
def Obligations.FanDutyClamp : Prop :=
  ∀ (p : Params) (duty : BitVec 16),
    expand p (.setFan duty) = [.issue (.encode p.holderAddr p.cmdFanPwm 0xFF (clampDuty duty) 0x00) .silent] ∧
    (clampDuty duty).toNat = min duty.toNat 255 ∧
    clampDuty 0 = 0 ∧ clampDuty 255 = 0xFF ∧ clampDuty 256 = 0xFF ∧ clampDuty 65535 = 0xFF

/-- R111, R113 to R117, R130: what the pseudo-operations without an address check issue, in order. That FAN_OFF's
packet is SET_FAN 0's is R113's own inference from R112. -/
def Obligations.PseudoOperationExpansions : Prop :=
  ∀ (p : Params) (t c a d : Byte),
    expand p (.genCmd t c a d) = [.issue (.encode t c a d 0) .silent] ∧
    expand p .fanOff = [.issue (.encode p.holderAddr p.cmdFanPwm 0xFF 0x00 0x00) .silent] ∧
    expand p .fanOff = expand p (.setFan 0) ∧
    expand p (.toggleInd 0) =
      [.issue (.encode p.holderAddr p.indOffPkt.command p.indOffPkt.address p.indOffPkt.data 0) .silent] ∧
    (c ≠ 0 → expand p (.toggleInd c) =
      [.issue (.encode p.holderAddr p.indOnPkt.command p.indOnPkt.address p.indOnPkt.data 0) .silent]) ∧
    expand p (.eeWrite t a d) =
      [.issue (.encode t p.cmdEeWrite a d 0) .silent, .issue (.read t 0 0 0 1) (.bytes .eeprom)] ∧
    expand p (.eeRead t a) =
      [.issue (.encode t p.cmdEeRead a 0xFF 0) .silent, .issue (.read t 0 0 0 1) (.bytes .eeprom)] ∧
    expand p (.getId t) =
      [.issue (.encode t p.cmdGetId 0xFF 0xFF 0) .silent, .issue (.readId t 0 0 0 0) .ident] ∧
    expand p (.clearErr t) = [.issue (.encode t p.cmdClearError 0xFF 0xFF 0) .silent, .say .cleared]

/-- R118 to R123: the one-byte queries: the code of the query with both fields unused, then one byte read and
reported under the query's label. -/
def Obligations.OneByteQueries : Prop :=
  ∀ (p : Params) (t : Byte) (op : PseudoOp) (code : Byte) (l : Label),
    (op, code, l) ∈ [(PseudoOp.getStation t, p.cmdReadStation, Label.station),
      (.getType t, p.cmdReadType, .peripheralType), (.getSize t, p.cmdReadSize, .size),
      (.getMaterial t, p.cmdReadMaterial, .material), (.getError t, p.cmdReadError, .error),
      (.getFwver t, p.cmdReadFwver, .fwver)] →
    expand p op = [.issue (.encode t code 0xFF 0xFF 0) .silent, .issue (.read t 0 0 0 1) (.bytes l)]

/-- R127 to R129: GET_VSENSE acts on the two cartridges only and GET_GPIO_SW on cartridge 1 only; on any other
address they issue nothing and report nothing. -/
def Obligations.AddressRestrictedQueries : Prop :=
  ∀ (p : Params) (t : Byte),
    expand p (.getVsense t) =
      (if t ≠ p.cart0Addr ∧ t ≠ p.cart1Addr then []
       else [.issue (.encode t p.cmdReadVsense 0xFF 0xFF 0) .silent,
        .issue (.read t 0 0 0 1) (.bytes (if t = p.cart0Addr then .vsenseCart0 else .vsenseCart1))]) ∧
    expand p (.getGpioSw t) =
      (if t ≠ p.cart1Addr then []
       else [.issue (.encode t p.cmdReadGpioSw 0xFF 0xFF 0) .silent, .issue (.read t 0 0 0 1) (.bytes .syringe)])

/-- R117, R124, R132: the console lines of an event, by how its request is reported. The events of a request without a
report (R111 to R114, and the ENCODE of every pseudo-operation) give no line. -/
def Obligations.ConsoleLinesOfEvents : Prop :=
  ∀ (p : Params) (l : Label) (b ty st : Byte) (n : BitVec 16),
    (∀ e : Event, reportEvent p .silent e = []) ∧
    reportEvent p (.bytes l) (.byte b) = [⟨l, decimal b.toNat⟩] ∧
    reportEvent p (.bytes l) .noData = [⟨.noData, []⟩] ∧ reportEvent p .ident .noData = [⟨.noData, []⟩] ∧
    reportEvent p (.bytes l) .timedOut = [⟨.timeout, []⟩] ∧ reportEvent p .ident .timedOut = [⟨.timeout, []⟩] ∧
    reportEvent p (.bytes l) .done = [] ∧ reportEvent p .ident .done = [] ∧
    reportEvent p .ident (.ident ty st n) =
      [⟨.peripheralType, decimal ty.toNat⟩, ⟨.station, decimal st.toNat⟩,
       ⟨.serial, padZeros n.toNat p.serialPadPrecision.toNat ++ decimal n.toNat⟩]

/-- R131 (the widths are its Results, the spec's own inference from its pseudocode): padZeros prints only zeros; for
`1 ≤ value < 10^p` the zeros and the digits are `p` characters; from `10^(p-1)` on no zero is printed; for 0 it is `p`
zeros; a precision above 10 acts as 10. -/
def Obligations.PadZerosWidth : Prop :=
  ∀ value precision : Nat,
    (∀ ch ∈ padZeros value precision, ch = '0') ∧
    (1 ≤ value → value < 10 ^ min precision 10 →
      (padZeros value precision ++ decimal value).length = min precision 10) ∧
    (10 ^ (min precision 10 - 1) ≤ value → padZeros value precision = []) ∧
    (padZeros 0 precision).length = min precision 10 ∧
    (10 < precision → padZeros value precision = padZeros value 10)

/-- The host's turn (R110, R124) when the block is idle and no request is presented: it reports the events it has not
taken; else it issues the next request of the running pseudo-operation, in canonical form, or prints its line; else it
takes up the next entry of its program. The block and the transport are not touched. That each is one step and the
order among them are the model's choice (log entries 1 and 21). -/
def Obligations.HostTurn : Prop :=
  ∀ s : State, s.resetLine = false → s.phase = .idle → s.req = none →
    (∃ u, step s = .next u ∧ u.latches = s.latches ∧ u.slots = s.slots ∧ u.idx = s.idx ∧ u.phase = .idle ∧
      u.events = s.events ∧ u.trace = s.trace ∧ u.transport = s.transport) ∧
    (s.dispatcher.taken < s.events.length →
      step s = .next { s with dispatcher := { s.dispatcher with
        taken := s.events.length
        console := s.dispatcher.console ++
          (s.events.drop s.dispatcher.taken).flatMap (reportEvent Config.params s.dispatcher.report) } }) ∧
    (∀ i r rest, s.events.length ≤ s.dispatcher.taken → s.dispatcher.todo = .issue i r :: rest →
      step s = .next { s with
        req := some (encodeReq i)
        dispatcher := { s.dispatcher with todo := rest, report := r } }) ∧
    (∀ l rest, s.events.length ≤ s.dispatcher.taken → s.dispatcher.todo = .say l :: rest →
      step s = .next { s with
        dispatcher := { s.dispatcher with todo := rest, console := s.dispatcher.console ++ [⟨l, []⟩] } }) ∧
    (∀ op rest, s.events.length ≤ s.dispatcher.taken → s.dispatcher.todo = [] →
      s.dispatcher.program = .pseudo op :: rest →
      step s = .next { s with
        dispatcher := { s.dispatcher with program := rest, todo := expand Config.params op } }) ∧
    (∀ w r rest, s.events.length ≤ s.dispatcher.taken → s.dispatcher.todo = [] →
      s.dispatcher.program = .request w r :: rest →
      step s = .next { s with
        req := some w
        dispatcher := { s.dispatcher with program := rest, report := r } })

/-- R116 (R110, R124) from beginning to end: the host issues EE_READ of a cell of any module; the transport's calls
return, it keeps TA2, sets no flag and offers the one byte `b`. After seven steps (the model's steps, log entries 1
and 21) the packet `[CMD_EE_READ, 0xFF, cell]` has been handed to the bus, the READ has followed it, and the console
has one more line: the byte in decimal. -/
def Obligations.EepromReadEndToEnd : Prop :=
  ∀ (s : State) (target cell b : Byte) (prog : List HostOp) (xs rest : List Answer),
    s.resetLine = false → s.phase = .idle → s.req = none → s.dispatcher.taken = s.events.length →
    s.dispatcher.todo = [] → s.dispatcher.program = .pseudo (.eeRead target cell) :: prog →
    xs.length = 5 → (∀ x ∈ xs, Answer.touchesFlag x = false) → s.transport.tflag = false →
    s.transport.answers = xs ++ ⟨false, false, some [b]⟩ :: List.replicate 4 ⟨false, false, none⟩ ++ rest →
    ∃ u, Sys2Proof.core.run 7 s = .next u ∧
      u.phase = .idle ∧ u.req = none ∧ u.dispatcher.todo = [] ∧ u.dispatcher.program = prog ∧
      u.dispatcher.console = s.dispatcher.console ++ [⟨.eeprom, decimal b.toNat⟩] ∧
      u.events = s.events ++ [.done, .byte b, .done] ∧
      u.transport.wire = s.transport.wire ++ [(target, [Config.params.cmdEeRead, 0xFF, cell])] ∧
      u.trace = s.trace ++
        [.beginTransaction target, .writeByte Config.params.cmdEeRead, .writeByte 0xFF, .writeByte cell,
          .endTransaction, .requestBytes target 1, .bytesAvailable 1, .readByte b, .timeoutFlagSet false,
          .bytesAvailable 0]
end

