-- ==== Sys2Proof/Laws/Decode.lean ====
section
/-! SUPPORT. The fields of a packed request word, one lemma each, and what the decoder does by `op`. -/

namespace Sys2Proof

variable (op target command address data count : Byte)

@[simp] theorem reqOp_packReq : reqOp (packReq op target command address data count) = op := by
  simp only [reqOp, packReq]
  ext i hi
  simp only [BitVec.getElem_extractLsb', BitVec.getLsbD_append]
  grind

@[simp] theorem reqTarget_packReq : reqTarget (packReq op target command address data count) = target := by
  simp only [reqTarget, packReq]
  ext i hi
  simp only [BitVec.getElem_extractLsb', BitVec.getLsbD_append]
  grind

@[simp] theorem reqCommand_packReq : reqCommand (packReq op target command address data count) = command := by
  simp only [reqCommand, packReq]
  ext i hi
  simp only [BitVec.getElem_extractLsb', BitVec.getLsbD_append]
  grind

@[simp] theorem reqAddress_packReq : reqAddress (packReq op target command address data count) = address := by
  simp only [reqAddress, packReq]
  ext i hi
  simp only [BitVec.getElem_extractLsb', BitVec.getLsbD_append]
  grind

@[simp] theorem reqData_packReq : reqData (packReq op target command address data count) = data := by
  simp only [reqData, packReq]
  ext i hi
  simp only [BitVec.getElem_extractLsb', BitVec.getLsbD_append]
  grind

@[simp] theorem reqCount_packReq : reqCount (packReq op target command address data count) = count := by
  simp only [reqCount, packReq]
  ext i hi
  simp only [BitVec.getElem_extractLsb', BitVec.getLsbD_append]
  grind

/-- A request word is its six fields put together: no bit lies outside them (R56). -/
theorem packReq_fields (w : ReqWord) :
    packReq (reqOp w) (reqTarget w) (reqCommand w) (reqAddress w) (reqData w) (reqCount w) = w := by
  simp only [packReq, reqOp, reqTarget, reqCommand, reqAddress, reqData, reqCount]
  ext i hi
  simp only [BitVec.getElem_append, BitVec.getElem_extractLsb']
  grind

theorem reqOp_encodeReq (i : Instr) : reqOp (encodeReq i) = i.op := by
  cases i <;> simp [encodeReq, Instr.op]

end Sys2Proof
end

