-- ==== Sys2Proof/Laws/State.lean ====
section
/-! SUPPORT. One lemma per field per update of State: no later proof unfolds a record update. -/

namespace Sys2Proof.Machine

variable (s : State)

@[simp] theorem State.setPhase_phase (v : Phase) : (s.setPhase v).phase = v := rfl
@[simp] theorem State.setPhase_inCall (v : Phase) : (s.setPhase v).inCall = s.inCall := rfl
@[simp] theorem State.setPhase_latches (v : Phase) : (s.setPhase v).latches = s.latches := rfl
@[simp] theorem State.setPhase_slots (v : Phase) : (s.setPhase v).slots = s.slots := rfl
@[simp] theorem State.setPhase_idx (v : Phase) : (s.setPhase v).idx = s.idx := rfl
@[simp] theorem State.setPhase_events (v : Phase) : (s.setPhase v).events = s.events := rfl
@[simp] theorem State.setPhase_trace (v : Phase) : (s.setPhase v).trace = s.trace := rfl
@[simp] theorem State.setPhase_transport (v : Phase) : (s.setPhase v).transport = s.transport := rfl
@[simp] theorem State.setPhase_req (v : Phase) : (s.setPhase v).req = s.req := rfl
@[simp] theorem State.setPhase_resetLine (v : Phase) : (s.setPhase v).resetLine = s.resetLine := rfl
@[simp] theorem State.setPhase_dispatcher (v : Phase) : (s.setPhase v).dispatcher = s.dispatcher := rfl

@[simp] theorem State.setInCall_phase (v : Bool) : (s.setInCall v).phase = s.phase := rfl
@[simp] theorem State.setInCall_inCall (v : Bool) : (s.setInCall v).inCall = v := rfl
@[simp] theorem State.setInCall_latches (v : Bool) : (s.setInCall v).latches = s.latches := rfl
@[simp] theorem State.setInCall_slots (v : Bool) : (s.setInCall v).slots = s.slots := rfl
@[simp] theorem State.setInCall_idx (v : Bool) : (s.setInCall v).idx = s.idx := rfl
@[simp] theorem State.setInCall_events (v : Bool) : (s.setInCall v).events = s.events := rfl
@[simp] theorem State.setInCall_trace (v : Bool) : (s.setInCall v).trace = s.trace := rfl
@[simp] theorem State.setInCall_transport (v : Bool) : (s.setInCall v).transport = s.transport := rfl
@[simp] theorem State.setInCall_req (v : Bool) : (s.setInCall v).req = s.req := rfl
@[simp] theorem State.setInCall_resetLine (v : Bool) : (s.setInCall v).resetLine = s.resetLine := rfl
@[simp] theorem State.setInCall_dispatcher (v : Bool) : (s.setInCall v).dispatcher = s.dispatcher := rfl

@[simp] theorem State.setLatches_phase (v : Latches) : (s.setLatches v).phase = s.phase := rfl
@[simp] theorem State.setLatches_inCall (v : Latches) : (s.setLatches v).inCall = s.inCall := rfl
@[simp] theorem State.setLatches_latches (v : Latches) : (s.setLatches v).latches = v := rfl
@[simp] theorem State.setLatches_slots (v : Latches) : (s.setLatches v).slots = s.slots := rfl
@[simp] theorem State.setLatches_idx (v : Latches) : (s.setLatches v).idx = s.idx := rfl
@[simp] theorem State.setLatches_events (v : Latches) : (s.setLatches v).events = s.events := rfl
@[simp] theorem State.setLatches_trace (v : Latches) : (s.setLatches v).trace = s.trace := rfl
@[simp] theorem State.setLatches_transport (v : Latches) : (s.setLatches v).transport = s.transport := rfl
@[simp] theorem State.setLatches_req (v : Latches) : (s.setLatches v).req = s.req := rfl
@[simp] theorem State.setLatches_resetLine (v : Latches) : (s.setLatches v).resetLine = s.resetLine := rfl
@[simp] theorem State.setLatches_dispatcher (v : Latches) : (s.setLatches v).dispatcher = s.dispatcher := rfl

@[simp] theorem State.setSlots_phase (v : Slots) : (s.setSlots v).phase = s.phase := rfl
@[simp] theorem State.setSlots_inCall (v : Slots) : (s.setSlots v).inCall = s.inCall := rfl
@[simp] theorem State.setSlots_latches (v : Slots) : (s.setSlots v).latches = s.latches := rfl
@[simp] theorem State.setSlots_slots (v : Slots) : (s.setSlots v).slots = v := rfl
@[simp] theorem State.setSlots_idx (v : Slots) : (s.setSlots v).idx = s.idx := rfl
@[simp] theorem State.setSlots_events (v : Slots) : (s.setSlots v).events = s.events := rfl
@[simp] theorem State.setSlots_trace (v : Slots) : (s.setSlots v).trace = s.trace := rfl
@[simp] theorem State.setSlots_transport (v : Slots) : (s.setSlots v).transport = s.transport := rfl
@[simp] theorem State.setSlots_req (v : Slots) : (s.setSlots v).req = s.req := rfl
@[simp] theorem State.setSlots_resetLine (v : Slots) : (s.setSlots v).resetLine = s.resetLine := rfl
@[simp] theorem State.setSlots_dispatcher (v : Slots) : (s.setSlots v).dispatcher = s.dispatcher := rfl

@[simp] theorem State.setIdx_phase (v : BitVec 3) : (s.setIdx v).phase = s.phase := rfl
@[simp] theorem State.setIdx_inCall (v : BitVec 3) : (s.setIdx v).inCall = s.inCall := rfl
@[simp] theorem State.setIdx_latches (v : BitVec 3) : (s.setIdx v).latches = s.latches := rfl
@[simp] theorem State.setIdx_slots (v : BitVec 3) : (s.setIdx v).slots = s.slots := rfl
@[simp] theorem State.setIdx_idx (v : BitVec 3) : (s.setIdx v).idx = v := rfl
@[simp] theorem State.setIdx_events (v : BitVec 3) : (s.setIdx v).events = s.events := rfl
@[simp] theorem State.setIdx_trace (v : BitVec 3) : (s.setIdx v).trace = s.trace := rfl
@[simp] theorem State.setIdx_transport (v : BitVec 3) : (s.setIdx v).transport = s.transport := rfl
@[simp] theorem State.setIdx_req (v : BitVec 3) : (s.setIdx v).req = s.req := rfl
@[simp] theorem State.setIdx_resetLine (v : BitVec 3) : (s.setIdx v).resetLine = s.resetLine := rfl
@[simp] theorem State.setIdx_dispatcher (v : BitVec 3) : (s.setIdx v).dispatcher = s.dispatcher := rfl

@[simp] theorem State.emit_phase (v : Event) : (s.emit v).phase = s.phase := rfl
@[simp] theorem State.emit_inCall (v : Event) : (s.emit v).inCall = s.inCall := rfl
@[simp] theorem State.emit_latches (v : Event) : (s.emit v).latches = s.latches := rfl
@[simp] theorem State.emit_slots (v : Event) : (s.emit v).slots = s.slots := rfl
@[simp] theorem State.emit_idx (v : Event) : (s.emit v).idx = s.idx := rfl
@[simp] theorem State.emit_events (v : Event) : (s.emit v).events = s.events ++ [v] := rfl
@[simp] theorem State.emit_trace (v : Event) : (s.emit v).trace = s.trace := rfl
@[simp] theorem State.emit_transport (v : Event) : (s.emit v).transport = s.transport := rfl
@[simp] theorem State.emit_req (v : Event) : (s.emit v).req = s.req := rfl
@[simp] theorem State.emit_resetLine (v : Event) : (s.emit v).resetLine = s.resetLine := rfl
@[simp] theorem State.emit_dispatcher (v : Event) : (s.emit v).dispatcher = s.dispatcher := rfl

@[simp] theorem State.logCall_phase (v : Call) : (s.logCall v).phase = s.phase := rfl
@[simp] theorem State.logCall_inCall (v : Call) : (s.logCall v).inCall = s.inCall := rfl
@[simp] theorem State.logCall_latches (v : Call) : (s.logCall v).latches = s.latches := rfl
@[simp] theorem State.logCall_slots (v : Call) : (s.logCall v).slots = s.slots := rfl
@[simp] theorem State.logCall_idx (v : Call) : (s.logCall v).idx = s.idx := rfl
@[simp] theorem State.logCall_events (v : Call) : (s.logCall v).events = s.events := rfl
@[simp] theorem State.logCall_trace (v : Call) : (s.logCall v).trace = s.trace ++ [v] := rfl
@[simp] theorem State.logCall_transport (v : Call) : (s.logCall v).transport = s.transport := rfl
@[simp] theorem State.logCall_req (v : Call) : (s.logCall v).req = s.req := rfl
@[simp] theorem State.logCall_resetLine (v : Call) : (s.logCall v).resetLine = s.resetLine := rfl
@[simp] theorem State.logCall_dispatcher (v : Call) : (s.logCall v).dispatcher = s.dispatcher := rfl

@[simp] theorem State.setTransport_phase (v : Transport) : (s.setTransport v).phase = s.phase := rfl
@[simp] theorem State.setTransport_inCall (v : Transport) : (s.setTransport v).inCall = s.inCall := rfl
@[simp] theorem State.setTransport_latches (v : Transport) : (s.setTransport v).latches = s.latches := rfl
@[simp] theorem State.setTransport_slots (v : Transport) : (s.setTransport v).slots = s.slots := rfl
@[simp] theorem State.setTransport_idx (v : Transport) : (s.setTransport v).idx = s.idx := rfl
@[simp] theorem State.setTransport_events (v : Transport) : (s.setTransport v).events = s.events := rfl
@[simp] theorem State.setTransport_trace (v : Transport) : (s.setTransport v).trace = s.trace := rfl
@[simp] theorem State.setTransport_transport (v : Transport) : (s.setTransport v).transport = v := rfl
@[simp] theorem State.setTransport_req (v : Transport) : (s.setTransport v).req = s.req := rfl
@[simp] theorem State.setTransport_resetLine (v : Transport) : (s.setTransport v).resetLine = s.resetLine := rfl
@[simp] theorem State.setTransport_dispatcher (v : Transport) : (s.setTransport v).dispatcher = s.dispatcher := rfl

@[simp] theorem State.setReq_phase (v : Option ReqWord) : (s.setReq v).phase = s.phase := rfl
@[simp] theorem State.setReq_inCall (v : Option ReqWord) : (s.setReq v).inCall = s.inCall := rfl
@[simp] theorem State.setReq_latches (v : Option ReqWord) : (s.setReq v).latches = s.latches := rfl
@[simp] theorem State.setReq_slots (v : Option ReqWord) : (s.setReq v).slots = s.slots := rfl
@[simp] theorem State.setReq_idx (v : Option ReqWord) : (s.setReq v).idx = s.idx := rfl
@[simp] theorem State.setReq_events (v : Option ReqWord) : (s.setReq v).events = s.events := rfl
@[simp] theorem State.setReq_trace (v : Option ReqWord) : (s.setReq v).trace = s.trace := rfl
@[simp] theorem State.setReq_transport (v : Option ReqWord) : (s.setReq v).transport = s.transport := rfl
@[simp] theorem State.setReq_req (v : Option ReqWord) : (s.setReq v).req = v := rfl
@[simp] theorem State.setReq_resetLine (v : Option ReqWord) : (s.setReq v).resetLine = s.resetLine := rfl
@[simp] theorem State.setReq_dispatcher (v : Option ReqWord) : (s.setReq v).dispatcher = s.dispatcher := rfl

@[simp] theorem State.setDispatcher_phase (v : Dispatcher) : (s.setDispatcher v).phase = s.phase := rfl
@[simp] theorem State.setDispatcher_inCall (v : Dispatcher) : (s.setDispatcher v).inCall = s.inCall := rfl
@[simp] theorem State.setDispatcher_latches (v : Dispatcher) : (s.setDispatcher v).latches = s.latches := rfl
@[simp] theorem State.setDispatcher_slots (v : Dispatcher) : (s.setDispatcher v).slots = s.slots := rfl
@[simp] theorem State.setDispatcher_idx (v : Dispatcher) : (s.setDispatcher v).idx = s.idx := rfl
@[simp] theorem State.setDispatcher_events (v : Dispatcher) : (s.setDispatcher v).events = s.events := rfl
@[simp] theorem State.setDispatcher_trace (v : Dispatcher) : (s.setDispatcher v).trace = s.trace := rfl
@[simp] theorem State.setDispatcher_transport (v : Dispatcher) : (s.setDispatcher v).transport = s.transport := rfl
@[simp] theorem State.setDispatcher_req (v : Dispatcher) : (s.setDispatcher v).req = s.req := rfl
@[simp] theorem State.setDispatcher_resetLine (v : Dispatcher) : (s.setDispatcher v).resetLine = s.resetLine := rfl
@[simp] theorem State.setDispatcher_dispatcher (v : Dispatcher) : (s.setDispatcher v).dispatcher = v := rfl

@[simp] theorem State.accept_phase (l : Latches) (p : Phase) : (s.accept l p).phase = p := rfl
@[simp] theorem State.accept_inCall (l : Latches) (p : Phase) : (s.accept l p).inCall = false := rfl
@[simp] theorem State.accept_latches (l : Latches) (p : Phase) : (s.accept l p).latches = l := rfl
@[simp] theorem State.accept_slots (l : Latches) (p : Phase) : (s.accept l p).slots = s.slots := rfl
@[simp] theorem State.accept_idx (l : Latches) (p : Phase) : (s.accept l p).idx = s.idx := rfl
@[simp] theorem State.accept_events (l : Latches) (p : Phase) : (s.accept l p).events = s.events := rfl
@[simp] theorem State.accept_trace (l : Latches) (p : Phase) : (s.accept l p).trace = s.trace := rfl
@[simp] theorem State.accept_transport (l : Latches) (p : Phase) : (s.accept l p).transport = s.transport := rfl
@[simp] theorem State.accept_req (l : Latches) (p : Phase) : (s.accept l p).req = s.req := rfl
@[simp] theorem State.accept_resetLine (l : Latches) (p : Phase) : (s.accept l p).resetLine = s.resetLine := rfl
@[simp] theorem State.accept_dispatcher (l : Latches) (p : Phase) : (s.accept l p).dispatcher = s.dispatcher := rfl

end Sys2Proof.Machine
end

