-- ==== Sys2Proof/Laws/Ops.lean ====
section
/-! SUPPORT. What each shared operation can do, said once: the transport calls, and a line that makes one. -/

namespace Sys2Proof.Machine

/-! ### The transport's own part in a call -/

@[simp] theorem Transport.disturb_tflag (x : Answer) (t : Transport) :
    (t.disturb x).tflag = (t.tflag || Answer.touchesFlag x) := rfl
@[simp] theorem Transport.disturb_rxq (x : Answer) (t : Transport) : (t.disturb x).rxq = x.rxq.getD t.rxq := rfl
@[simp] theorem Transport.disturb_openTx (x : Answer) (t : Transport) : (t.disturb x).openTx = t.openTx := rfl
@[simp] theorem Transport.disturb_wire (x : Answer) (t : Transport) : (t.disturb x).wire = t.wire := rfl
@[simp] theorem Transport.disturb_answers (x : Answer) (t : Transport) : (t.disturb x).answers = t.answers := rfl
@[simp] theorem Transport.disturb_draws (x : Answer) (t : Transport) : (t.disturb x).draws = t.draws := rfl

/-! ### Entering a call -/

@[simp] theorem State.enterCall_inCall (before : State → State) (s : State) :
    (s.enterCall before).inCall = true := by
  unfold State.enterCall; split <;> simp_all

theorem State.enterCall_of_inCall {s : State} (h : s.inCall = true) (before : State → State) :
    s.enterCall before = s := by
  simp [State.enterCall, h]

theorem State.enterCall_of_not_inCall {s : State} (h : s.inCall = false) (before : State → State) :
    s.enterCall before = (before s).setInCall true := by
  simp [State.enterCall, h]

/-- A line with nothing before its call only marks the call as made. -/
theorem State.enterCall_id (s : State) : s.enterCall id = s.setInCall true := by
  cases h : s.inCall
  · exact State.enterCall_of_not_inCall h id
  · rw [State.enterCall_of_inCall h]
    cases s; simp_all [State.setInCall]

/-- A line with an event before its call emits it when the call is made, not again while it is pending. -/
theorem State.enterCall_emit (e : Event) (s : State) :
    s.enterCall (State.emit e) = { s with inCall := true, events := s.events ++ if s.inCall then [] else [e] } := by
  cases h : s.inCall
  · rw [State.enterCall_of_not_inCall h]; rfl
  · rw [State.enterCall_of_inCall h]
    cases s; simp_all

/-- Entering a call keeps every field that what stands before the call keeps, but `inCall`. -/
theorem State.enterCall_field {β : Type} (f : State → β) {before : State → State} {s : State}
    (hb : f ((before s).setInCall true) = f s) : f (s.enterCall before) = f s := by
  unfold State.enterCall; split
  · rfl
  · exact hb

/-! ### A line with a call -/

variable {α : Type} {s : State} {before : State → State}
  {call : Answer → Transport → Except Fault (Transport × α)} {record : α → Call} {after : α → State → State}

/-- No answer is listed: the call has not returned (R172). -/
theorem State.callLine_waits (h : (s.enterCall before).transport.answers = []) :
    s.callLine before call record after = .waits (s.enterCall before) := by
  simp [State.callLine, h]

/-- An answer is listed and the call returns. -/
theorem State.callLine_moved {x : Answer} {rest : List Answer} {t : Transport} {r : α}
    (h : (s.enterCall before).transport.answers = x :: rest)
    (hc : call x { (s.enterCall before).transport with answers := rest } = .ok (t, r)) :
    s.callLine before call record after =
      .moved (after r ((((s.enterCall before).setTransport t).logCall (record r)).setInCall false)) := by
  simp [State.callLine, h, hc]

/-- Everything a line with a call can come to. -/
theorem State.callLine_cases (s : State) (before : State → State)
    (call : Answer → Transport → Except Fault (Transport × α)) (record : α → Call) (after : α → State → State) :
    ((s.enterCall before).transport.answers = [] ∧
      s.callLine before call record after = .waits (s.enterCall before)) ∨
    (∃ x rest t r, (s.enterCall before).transport.answers = x :: rest ∧
      call x { (s.enterCall before).transport with answers := rest } = .ok (t, r) ∧
      s.callLine before call record after =
        .moved (after r ((((s.enterCall before).setTransport t).logCall (record r)).setInCall false))) ∨
    (∃ x rest f, (s.enterCall before).transport.answers = x :: rest ∧
      call x { (s.enterCall before).transport with answers := rest } = .error f ∧
      s.callLine before call record after = .stops f) := by
  cases h : (s.enterCall before).transport.answers with
  | nil => exact .inl ⟨rfl, State.callLine_waits h⟩
  | cons x rest =>
    cases hc : call x { (s.enterCall before).transport with answers := rest } with
    | ok p => exact .inr (.inl ⟨x, rest, p.1, p.2, rfl, hc, State.callLine_moved h hc⟩)
    | error f => exact .inr (.inr ⟨x, rest, f, rfl, hc, by simp [State.callLine, h, hc]⟩)

/-- A line that moved: the call took the next answer and returned. -/
theorem State.callLine_moved_inv {u : State} (h : s.callLine before call record after = .moved u) :
    ∃ x rest t r, (s.enterCall before).transport.answers = x :: rest ∧
      call x { (s.enterCall before).transport with answers := rest } = .ok (t, r) ∧
      u = after r ((((s.enterCall before).setTransport t).logCall (record r)).setInCall false) := by
  rcases State.callLine_cases s before call record after with ⟨_, hw⟩ | ⟨x, rest, t, r, ha, hc, hm⟩ | ⟨_, _, _, _, _, hs⟩
  · simp [hw] at h
  · exact ⟨x, rest, t, r, ha, hc, by simpa [hm] using h.symm⟩
  · simp [hs] at h

/-- A line that waits: no answer is listed, and the call has been made. -/
theorem State.callLine_waits_inv {u : State} (h : s.callLine before call record after = .waits u) :
    (s.enterCall before).transport.answers = [] ∧ u = s.enterCall before := by
  rcases State.callLine_cases s before call record after with ⟨ha, hw⟩ | ⟨_, _, _, _, _, _, hm⟩ | ⟨_, _, _, _, _, hs⟩
  · exact ⟨ha, by simpa [hw] using h.symm⟩
  · simp [hm] at h
  · simp [hs] at h

/-! ### The calls that can fault -/

theorem Transport.writeByte_ok {b : Byte} {x : Answer} {t : Transport} {a : Byte} {bs : List Byte}
    (h : t.openTx = some (a, bs)) :
    t.writeByte b x = .ok ({ t.disturb x with openTx := some (a, bs ++ [b]) }, ()) := by
  simp [Transport.writeByte, h]

theorem Transport.endTransaction_ok {x : Answer} {t : Transport} {tx : Byte × List Byte}
    (h : t.openTx = some tx) :
    t.endTransaction x = .ok ({ t.disturb x with openTx := none, wire := t.wire ++ [tx] }, ()) := by
  simp [Transport.endTransaction, h]

theorem Transport.readByte_ok {x : Answer} {t : Transport} {b : Byte} {q : List Byte} (h : t.rxq = b :: q) :
    t.readByte x = .ok (({ t with rxq := q } : Transport).disturb x, b) := by
  simp [Transport.readByte, h]

end Sys2Proof.Machine
end

