-- ==== Sys2Proof/Laws/Sequencer.lean ====
section
/-! SUPPORT. How an operation runs: one lemma for each way a line moves the sequencer, and an induction principle
packaged once for what every line keeps. -/

namespace Sys2Proof.Machine

theorem State.busy_iff {s : State} : s.busy = true ↔ s.phase ≠ .idle := by
  simp [State.busy]

theorem State.not_busy {s : State} (h : s.phase = .idle) : s.busy = false := by
  simp [State.busy, h]

theorem drive_idle {s : State} (h : s.phase = .idle) (n : Nat) : drive n s = .next s := by
  cases n <;> simp [drive, State.not_busy h]

theorem drive_moved {s t : State} (hb : s.phase ≠ .idle) (h : line s = .moved t) (n : Nat) :
    drive (n + 1) s = drive n t := by
  simp [drive, State.busy_iff.mpr hb, h]

theorem drive_waits {s t : State} (hb : s.phase ≠ .idle) (h : line s = .waits t) (n : Nat) :
    drive (n + 1) s = .next t := by
  simp [drive, State.busy_iff.mpr hb, h]

theorem startOp_idle {s : State} (h : s.phase = .idle) (l : Latches) (p : Phase) :
    startOp l p s = runOp (s.accept l p) := by
  simp [startOp, State.not_busy h]

theorem startOp_busy {s : State} (h : s.phase ≠ .idle) (l : Latches) (p : Phase) : startOp l p s = .next s := by
  simp [startOp, State.busy_iff.mpr h]

/-- What every line keeps, a run keeps: if `P` holds before, and holds after a line that moves or waits, then it holds
of the state a run gives. -/
theorem drive_keeps {P : State → Prop}
    (hmoved : ∀ s t, P s → s.phase ≠ .idle → line s = .moved t → P t)
    (hwaits : ∀ s t, P s → s.phase ≠ .idle → line s = .waits t → P t) :
    ∀ n s t, P s → drive n s = .next t → P t := by
  intro n
  induction n with
  | zero => intro s t hs h; cases h; exact hs
  | succ n ih =>
    intro s t hs h
    by_cases hb : s.phase = .idle
    · rw [drive_idle hb] at h; cases h; exact hs
    · cases hl : line s with
      | moved u => rw [drive_moved hb hl] at h; exact ih u t (hmoved s u hs hb hl) h
      | waits u => rw [drive_waits hb hl] at h; cases h; exact hwaits s _ hs hb hl
      | stops f => simp [drive, State.busy_iff.mpr hb, hl] at h

end Sys2Proof.Machine
end

