-- ==== Sys2Proof/Laws/Drain.lean ====
section
/-! SUPPORT. One pass of the drain loops of READ and READ_ID as one fact each, and the lengths of `drain`. -/

namespace Sys2Proof.Machine

/-- With four answers for each byte, `drain` asks for the flag once for each byte (R85). -/
theorem drain_flags_length (k : Nat) (tf : Bool) (xs : List Answer) (h : 4 * k ≤ xs.length) :
    (drain k tf xs).flags.length = k := by
  induction k generalizing tf xs with
  | zero => rfl
  | succ k ih =>
    match xs, h with
    | x₀ :: x₁ :: x₂ :: x₃ :: ys, h =>
      simp only [List.length_cons] at h
      simp only [drain]
      split
      · simp [ih (x₂.setsFlagAfter || Answer.touchesFlag x₃) ys (by omega)]
      · simp [ih (x₁.setsFlagAfter || Answer.touchesFlag x₂) (x₃ :: ys) (by simp; omega)]

/-- A pass of READ whose flag is seen set: the lines RD2 to RD5 (R84, R85, R86). -/
theorem read_pass_timeout {s : State} {b : Byte} {q : List Byte} {x₀ x₁ x₂ x₃ : Answer} {xs : List Answer}
    (hp : s.phase = .rd2) (hc : s.inCall = false) (hq : s.transport.rxq = b :: q)
    (ha : s.transport.answers = x₀ :: x₁ :: x₂ :: x₃ :: xs)
    (h₀ : x₀.rxq = none) (h₁ : x₁.rxq = none) (h₂ : x₂.rxq = none) (h₃ : x₃.rxq = none)
    (hf : (s.transport.tflag || Answer.touchesFlag x₀ || x₁.setsFlag) = true) (n : Nat) :
    drive (n + 4) s = drive n { s with
      phase := if q.length = 0 then .rd6 else .rd2
      events := s.events ++ [.byte b, .timedOut]
      trace := s.trace ++ [.readByte b, .timeoutFlagSet true, .resetTimeoutFlag, .bytesAvailable q.length]
      transport := { s.transport with tflag := x₂.setsFlagAfter || Answer.touchesFlag x₃, rxq := q, answers := xs } } := by
  rw [show n + 4 = n + 1 + 1 + 1 + 1 from rfl]
  simp [drive, State.busy, hp, hc, ha, hq, line, lineRd2, lineRd3, lineRd4, lineRd5, State.callLine,
    State.enterCall, Transport.readByte, Transport.timeoutFlagSet, Transport.resetTimeoutFlag,
    Transport.bytesAvailable, State.setPhase, State.setInCall, State.setTransport, State.logCall, State.emit,
    Transport.disturb, hf, h₀, h₁, h₂, h₃]

/-- A pass of READ whose flag is seen clear: the lines RD2, RD3, RD5 (R84, R85, R86). -/
theorem read_pass_quiet {s : State} {b : Byte} {q : List Byte} {x₀ x₁ x₂ : Answer} {xs : List Answer}
    (hp : s.phase = .rd2) (hc : s.inCall = false) (hq : s.transport.rxq = b :: q)
    (ha : s.transport.answers = x₀ :: x₁ :: x₂ :: xs)
    (h₀ : x₀.rxq = none) (h₁ : x₁.rxq = none) (h₂ : x₂.rxq = none)
    (hf : (s.transport.tflag || Answer.touchesFlag x₀ || x₁.setsFlag) = false) (n : Nat) :
    drive (n + 3) s = drive n { s with
      phase := if q.length = 0 then .rd6 else .rd2
      events := s.events ++ [.byte b]
      trace := s.trace ++ [.readByte b, .timeoutFlagSet false, .bytesAvailable q.length]
      transport := { s.transport with tflag := x₁.setsFlagAfter || Answer.touchesFlag x₂, rxq := q, answers := xs } } := by
  have hq₁ : (s.transport.tflag || Answer.touchesFlag x₀ || Answer.touchesFlag x₁) = x₁.setsFlagAfter := by
    rw [show Answer.touchesFlag x₁ = (x₁.setsFlag || x₁.setsFlagAfter) from rfl, ← Bool.or_assoc, hf, Bool.false_or]
  rw [show n + 3 = n + 1 + 1 + 1 from rfl]
  simp [drive, State.busy, hp, hc, ha, hq, line, lineRd2, lineRd3, lineRd5, State.callLine,
    State.enterCall, Transport.readByte, Transport.timeoutFlagSet,
    Transport.bytesAvailable, State.setPhase, State.setInCall, State.setTransport, State.logCall, State.emit,
    Transport.disturb, hf, hq₁, h₀, h₁, h₂]

/-- A pass of READ_ID whose flag is seen set: the lines ID3 to ID6 (R98, R99, R103). -/
theorem readId_pass_timeout {s : State} {b : Byte} {q : List Byte} {x₀ x₁ x₂ x₃ : Answer} {xs : List Answer}
    (hp : s.phase = .id3) (hc : s.inCall = false) (hq : s.transport.rxq = b :: q)
    (ha : s.transport.answers = x₀ :: x₁ :: x₂ :: x₃ :: xs)
    (h₀ : x₀.rxq = none) (h₁ : x₁.rxq = none) (h₂ : x₂.rxq = none) (h₃ : x₃.rxq = none)
    (hf : (s.transport.tflag || Answer.touchesFlag x₀ || x₁.setsFlag) = true) (n : Nat) :
    drive (n + 4) s = drive n { s with
      phase := if q.length = 0 then .id7 else .id3
      slots := s.slots.write s.idx b
      idx := nextIdx s.idx
      events := s.events ++ [.timedOut]
      trace := s.trace ++ [.readByte b, .timeoutFlagSet true, .resetTimeoutFlag, .bytesAvailable q.length]
      transport := { s.transport with tflag := x₂.setsFlagAfter || Answer.touchesFlag x₃, rxq := q, answers := xs } } := by
  rw [show n + 4 = n + 1 + 1 + 1 + 1 from rfl]
  simp [drive, State.busy, hp, hc, ha, hq, line, lineId3, lineId4, lineId5, lineId6, State.callLine,
    State.enterCall, Transport.readByte, Transport.timeoutFlagSet, Transport.resetTimeoutFlag,
    Transport.bytesAvailable, State.setPhase, State.setInCall, State.setTransport, State.logCall, State.emit,
    State.storeReply, State.setSlots, State.setIdx, Transport.disturb, hf, h₀, h₁, h₂, h₃]

/-- A pass of READ_ID whose flag is seen clear: the lines ID3, ID4, ID6 (R98, R99, R103). -/
theorem readId_pass_quiet {s : State} {b : Byte} {q : List Byte} {x₀ x₁ x₂ : Answer} {xs : List Answer}
    (hp : s.phase = .id3) (hc : s.inCall = false) (hq : s.transport.rxq = b :: q)
    (ha : s.transport.answers = x₀ :: x₁ :: x₂ :: xs)
    (h₀ : x₀.rxq = none) (h₁ : x₁.rxq = none) (h₂ : x₂.rxq = none)
    (hf : (s.transport.tflag || Answer.touchesFlag x₀ || x₁.setsFlag) = false) (n : Nat) :
    drive (n + 3) s = drive n { s with
      phase := if q.length = 0 then .id7 else .id3
      slots := s.slots.write s.idx b
      idx := nextIdx s.idx
      trace := s.trace ++ [.readByte b, .timeoutFlagSet false, .bytesAvailable q.length]
      transport := { s.transport with tflag := x₁.setsFlagAfter || Answer.touchesFlag x₂, rxq := q, answers := xs } } := by
  have hq₁ : (s.transport.tflag || Answer.touchesFlag x₀ || Answer.touchesFlag x₁) = x₁.setsFlagAfter := by
    rw [show Answer.touchesFlag x₁ = (x₁.setsFlag || x₁.setsFlagAfter) from rfl, ← Bool.or_assoc, hf, Bool.false_or]
  rw [show n + 3 = n + 1 + 1 + 1 from rfl]
  simp [drive, State.busy, hp, hc, ha, hq, line, lineId3, lineId4, lineId6, State.callLine,
    State.enterCall, Transport.readByte, Transport.timeoutFlagSet,
    Transport.bytesAvailable, State.setPhase, State.setInCall, State.setTransport, State.logCall,
    State.storeReply, State.setSlots, State.setIdx, Transport.disturb, hf, hq₁, h₀, h₁, h₂]

end Sys2Proof.Machine
end

