-- ==== Sys2Proof/Laws/Lines.lean ====
section
/-! SUPPORT. What a line can do, said once for each label: the state it moves to (`Moves`), the state it waits in, and
when it stops. Invariants of the sequencer are derived from these, not by unfolding the lines. -/

namespace Sys2Proof.Machine

/-- The states the line at `PHASE` can move to, one constructor a label (two where the line branches on "no data"):
`x` is the transport's answer to the line's call. -/
inductive Moves (s : State) : State → Prop
  | en0 {x xs} (hp : s.phase = .en0)
      (ha : s.transport.answers = x :: xs) :
    Moves s { s with
        phase := .en1
        inCall := false
        trace := s.trace ++ [.beginTransaction s.latches.target]
        transport := { s.transport.disturb x with answers := xs, openTx := some (s.latches.target, []) } }
  | en1 {x xs a bs} (hp : s.phase = .en1)
      (ha : s.transport.answers = x :: xs)
      (ho : s.transport.openTx = some (a, bs)) :
    Moves s { s with
        phase := .en2
        inCall := false
        trace := s.trace ++ [.writeByte s.latches.command]
        transport := { s.transport.disturb x with answers := xs, openTx := some (a, bs ++ [s.latches.command]) } }
  | en2 {x xs a bs} (hp : s.phase = .en2)
      (ha : s.transport.answers = x :: xs)
      (ho : s.transport.openTx = some (a, bs)) :
    Moves s { s with
        phase := .en3
        inCall := false
        trace := s.trace ++ [.writeByte s.latches.data]
        transport := { s.transport.disturb x with answers := xs, openTx := some (a, bs ++ [s.latches.data]) } }
  | en3 {x xs a bs} (hp : s.phase = .en3)
      (ha : s.transport.answers = x :: xs)
      (ho : s.transport.openTx = some (a, bs)) :
    Moves s { s with
        phase := .en4
        inCall := false
        trace := s.trace ++ [.writeByte s.latches.address]
        transport := { s.transport.disturb x with answers := xs, openTx := some (a, bs ++ [s.latches.address]) } }
  | en4 {x xs a} (hp : s.phase = .en4)
      (ha : s.transport.answers = x :: xs)
      (ho : s.transport.openTx = some a) :
    Moves s { s with
        phase := .en5
        inCall := false
        trace := s.trace ++ [.endTransaction]
        transport := { s.transport.disturb x with answers := xs, openTx := none, wire := s.transport.wire ++ [a] } }
  | en5 (hp : s.phase = .en5) :
    Moves s { s with
        phase := .idle
        events := s.events ++ [.done] }
  | rd0 {x xs} (hp : s.phase = .rd0)
      (ha : s.transport.answers = x :: xs) :
    Moves s { s with
        phase := .rd1
        inCall := false
        trace := s.trace ++ [.requestBytes s.latches.target s.latches.count]
        transport := { s.transport.disturb x with answers := xs } }
  | rd1z {x xs} (hp : s.phase = .rd1)
      (ha : s.transport.answers = x :: xs)
      (hz : (s.transport.disturb x).rxq = []) :
    Moves s { s with
        phase := .rd6
        inCall := false
        events := s.events ++ [.noData]
        trace := s.trace ++ [.bytesAvailable 0]
        transport := { s.transport.disturb x with answers := xs } }
  | rd1 {x xs} (hp : s.phase = .rd1)
      (ha : s.transport.answers = x :: xs)
      (hz : (s.transport.disturb x).rxq ≠ []) :
    Moves s { s with
        phase := .rd2
        inCall := false
        trace := s.trace ++ [.bytesAvailable (s.transport.disturb x).rxq.length]
        transport := { s.transport.disturb x with answers := xs } }
  | rd2 {x xs b q} (hp : s.phase = .rd2)
      (ha : s.transport.answers = x :: xs)
      (hq : s.transport.rxq = b :: q) :
    Moves s { s with
        phase := .rd3
        inCall := false
        events := s.events ++ [.byte b]
        trace := s.trace ++ [.readByte b]
        transport := { ({ s.transport with rxq := q } : Transport).disturb x with answers := xs } }
  | rd3 {x xs} (hp : s.phase = .rd3)
      (ha : s.transport.answers = x :: xs) :
    Moves s { s with
        phase := if s.transport.tflag || x.setsFlag then .rd4 else .rd5
        inCall := false
        trace := s.trace ++ [.timeoutFlagSet (s.transport.tflag || x.setsFlag)]
        transport := { s.transport.disturb x with answers := xs } }
  | rd4 {x xs} (hp : s.phase = .rd4)
      (ha : s.transport.answers = x :: xs) :
    Moves s { s with
        phase := .rd5
        inCall := false
        events := s.events ++ (if s.inCall then [] else [.timedOut])
        trace := s.trace ++ [.resetTimeoutFlag]
        transport := { s.transport.disturb x with answers := xs, tflag := x.setsFlagAfter } }
  | rd5 {x xs} (hp : s.phase = .rd5)
      (ha : s.transport.answers = x :: xs) :
    Moves s { s with
        phase := if (s.transport.disturb x).rxq = [] then .rd6 else .rd2
        inCall := false
        trace := s.trace ++ [.bytesAvailable (s.transport.disturb x).rxq.length]
        transport := { s.transport.disturb x with answers := xs } }
  | rd6 (hp : s.phase = .rd6) :
    Moves s { s with
        phase := .idle
        events := s.events ++ [.done] }
  | id0 (hp : s.phase = .id0) :
    Moves s { s with
        phase := .id1
        slots := Slots.zero
        idx := 0 }
  | id1 {x xs} (hp : s.phase = .id1)
      (ha : s.transport.answers = x :: xs) :
    Moves s { s with
        phase := .id2
        inCall := false
        trace := s.trace ++ [.requestBytes s.latches.target 4]
        transport := { s.transport.disturb x with answers := xs } }
  | id2z {x xs} (hp : s.phase = .id2)
      (ha : s.transport.answers = x :: xs)
      (hz : (s.transport.disturb x).rxq = []) :
    Moves s { s with
        phase := .id8
        inCall := false
        events := s.events ++ [.noData]
        trace := s.trace ++ [.bytesAvailable 0]
        transport := { s.transport.disturb x with answers := xs } }
  | id2 {x xs} (hp : s.phase = .id2)
      (ha : s.transport.answers = x :: xs)
      (hz : (s.transport.disturb x).rxq ≠ []) :
    Moves s { s with
        phase := .id3
        inCall := false
        trace := s.trace ++ [.bytesAvailable (s.transport.disturb x).rxq.length]
        transport := { s.transport.disturb x with answers := xs } }
  | id3 {x xs b q} (hp : s.phase = .id3)
      (ha : s.transport.answers = x :: xs)
      (hq : s.transport.rxq = b :: q) :
    Moves s { s with
        phase := .id4
        inCall := false
        slots := s.slots.write s.idx b
        idx := nextIdx s.idx
        trace := s.trace ++ [.readByte b]
        transport := { ({ s.transport with rxq := q } : Transport).disturb x with answers := xs } }
  | id4 {x xs} (hp : s.phase = .id4)
      (ha : s.transport.answers = x :: xs) :
    Moves s { s with
        phase := if s.transport.tflag || x.setsFlag then .id5 else .id6
        inCall := false
        trace := s.trace ++ [.timeoutFlagSet (s.transport.tflag || x.setsFlag)]
        transport := { s.transport.disturb x with answers := xs } }
  | id5 {x xs} (hp : s.phase = .id5)
      (ha : s.transport.answers = x :: xs) :
    Moves s { s with
        phase := .id6
        inCall := false
        events := s.events ++ (if s.inCall then [] else [.timedOut])
        trace := s.trace ++ [.resetTimeoutFlag]
        transport := { s.transport.disturb x with answers := xs, tflag := x.setsFlagAfter } }
  | id6 {x xs} (hp : s.phase = .id6)
      (ha : s.transport.answers = x :: xs) :
    Moves s { s with
        phase := if (s.transport.disturb x).rxq = [] then .id7 else .id3
        inCall := false
        trace := s.trace ++ [.bytesAvailable (s.transport.disturb x).rxq.length]
        transport := { s.transport.disturb x with answers := xs } }
  | id7 (hp : s.phase = .id7) :
    Moves s { s with
        phase := .id8
        events := s.events ++ [s.slots.identEvent] }
  | id8 (hp : s.phase = .id8) :
    Moves s { s with
        phase := .idle
        events := s.events ++ [.done] }

section
variable {s u : State}

theorem line_en0_moves (hp : s.phase = .en0) (h : line s = .moved u) : Moves s u := by
  rcases ha : s.transport.answers with _ | ⟨x, xs⟩ <;>
    simp [line, hp, lineEn0, State.callLine, State.enterCall_id, ha, State.setInCall, State.setTransport, State.logCall, State.setPhase, Transport.beginTransaction] at h
  subst h; exact .en0 hp ha

theorem line_en1_moves (hp : s.phase = .en1) (h : line s = .moved u) : Moves s u := by
  rcases ha : s.transport.answers with _ | ⟨x, xs⟩ <;> rcases ho : s.transport.openTx with _ | ⟨a, bs⟩ <;>
    simp [line, hp, lineEn1, State.callLine, State.enterCall_id, ha, State.setInCall, State.setTransport, State.logCall, State.setPhase, Transport.writeByte, ho] at h
  subst h; exact .en1 hp ha ho

theorem line_en2_moves (hp : s.phase = .en2) (h : line s = .moved u) : Moves s u := by
  rcases ha : s.transport.answers with _ | ⟨x, xs⟩ <;> rcases ho : s.transport.openTx with _ | ⟨a, bs⟩ <;>
    simp [line, hp, lineEn2, State.callLine, State.enterCall_id, ha, State.setInCall, State.setTransport, State.logCall, State.setPhase, Transport.writeByte, ho] at h
  subst h; exact .en2 hp ha ho

theorem line_en3_moves (hp : s.phase = .en3) (h : line s = .moved u) : Moves s u := by
  rcases ha : s.transport.answers with _ | ⟨x, xs⟩ <;> rcases ho : s.transport.openTx with _ | ⟨a, bs⟩ <;>
    simp [line, hp, lineEn3, State.callLine, State.enterCall_id, ha, State.setInCall, State.setTransport, State.logCall, State.setPhase, Transport.writeByte, ho] at h
  subst h; exact .en3 hp ha ho

theorem line_en4_moves (hp : s.phase = .en4) (h : line s = .moved u) : Moves s u := by
  rcases ha : s.transport.answers with _ | ⟨x, xs⟩ <;> rcases ho : s.transport.openTx with _ | a <;>
    simp [line, hp, lineEn4, State.callLine, State.enterCall_id, ha, State.setInCall, State.setTransport, State.logCall, State.setPhase, Transport.endTransaction, ho] at h
  subst h; exact .en4 hp ha ho

theorem line_en5_moves (hp : s.phase = .en5) (h : line s = .moved u) : Moves s u := by
  simp [line, hp, lineEn5, State.plainLine, State.emit, State.setPhase] at h
  subst h; exact .en5 hp

theorem line_rd6_moves (hp : s.phase = .rd6) (h : line s = .moved u) : Moves s u := by
  simp [line, hp, lineRd6, State.plainLine, State.emit, State.setPhase] at h
  subst h; exact .rd6 hp

theorem line_id8_moves (hp : s.phase = .id8) (h : line s = .moved u) : Moves s u := by
  simp [line, hp, lineId8, State.plainLine, State.emit, State.setPhase] at h
  subst h; exact .id8 hp

theorem line_rd0_moves (hp : s.phase = .rd0) (h : line s = .moved u) : Moves s u := by
  rcases ha : s.transport.answers with _ | ⟨x, xs⟩ <;>
    simp [line, hp, lineRd0, State.callLine, State.enterCall_id, ha, State.setInCall, State.setTransport, State.logCall, State.setPhase, Transport.requestBytes] at h
  subst h; exact .rd0 hp ha

theorem line_id1_moves (hp : s.phase = .id1) (h : line s = .moved u) : Moves s u := by
  rcases ha : s.transport.answers with _ | ⟨x, xs⟩ <;>
    simp [line, hp, lineId1, State.callLine, State.enterCall_id, ha, State.setInCall, State.setTransport, State.logCall, State.setPhase, Transport.requestBytes] at h
  subst h; exact .id1 hp ha

theorem line_rd1_moves (hp : s.phase = .rd1) (h : line s = .moved u) : Moves s u := by
  rcases ha : s.transport.answers with _ | ⟨x, xs⟩ <;>
    simp [line, hp, lineRd1, State.callLine, State.enterCall_id, ha, State.setInCall, State.setTransport, State.logCall, State.setPhase, Transport.bytesAvailable, State.emit] at h
  by_cases hz : x.rxq.getD s.transport.rxq = []
  · simp [hz] at h; subst h
    exact cast (by simp [Transport.disturb, hz]) (Moves.rd1z hp ha hz)
  · simp [hz] at h; subst h; exact .rd1 hp ha hz

theorem line_id2_moves (hp : s.phase = .id2) (h : line s = .moved u) : Moves s u := by
  rcases ha : s.transport.answers with _ | ⟨x, xs⟩ <;>
    simp [line, hp, lineId2, State.callLine, State.enterCall_id, ha, State.setInCall, State.setTransport, State.logCall, State.setPhase, Transport.bytesAvailable, State.emit] at h
  by_cases hz : x.rxq.getD s.transport.rxq = []
  · simp [hz] at h; subst h
    exact cast (by simp [Transport.disturb, hz]) (Moves.id2z hp ha hz)
  · simp [hz] at h; subst h; exact .id2 hp ha hz

theorem line_rd2_moves (hp : s.phase = .rd2) (h : line s = .moved u) : Moves s u := by
  rcases ha : s.transport.answers with _ | ⟨x, xs⟩ <;> rcases hq : s.transport.rxq with _ | ⟨b, q⟩ <;>
    simp [line, hp, lineRd2, State.callLine, State.enterCall_id, ha, State.setInCall, State.setTransport, State.logCall, State.setPhase, Transport.readByte, hq, State.emit] at h
  subst h; exact .rd2 hp ha hq

theorem line_id3_moves (hp : s.phase = .id3) (h : line s = .moved u) : Moves s u := by
  rcases ha : s.transport.answers with _ | ⟨x, xs⟩ <;> rcases hq : s.transport.rxq with _ | ⟨b, q⟩ <;>
    simp [line, hp, lineId3, State.callLine, State.enterCall_id, ha, State.setInCall, State.setTransport, State.logCall, State.setPhase, Transport.readByte, hq, State.storeReply, State.setSlots,
      State.setIdx] at h
  subst h; exact .id3 hp ha hq

theorem line_rd3_moves (hp : s.phase = .rd3) (h : line s = .moved u) : Moves s u := by
  rcases ha : s.transport.answers with _ | ⟨x, xs⟩ <;>
    simp only [line, hp, lineRd3, State.callLine, State.enterCall_id, ha, State.setInCall, State.setTransport, State.logCall, State.setPhase,
      Transport.timeoutFlagSet, reduceCtorEq, LineOut.moved.injEq] at h
  subst h; exact .rd3 hp ha

theorem line_id4_moves (hp : s.phase = .id4) (h : line s = .moved u) : Moves s u := by
  rcases ha : s.transport.answers with _ | ⟨x, xs⟩ <;>
    simp only [line, hp, lineId4, State.callLine, State.enterCall_id, ha, State.setInCall, State.setTransport, State.logCall, State.setPhase,
      Transport.timeoutFlagSet, reduceCtorEq, LineOut.moved.injEq] at h
  subst h; exact .id4 hp ha

theorem line_rd4_moves (hp : s.phase = .rd4) (h : line s = .moved u) : Moves s u := by
  rcases ha : s.transport.answers with _ | ⟨x, xs⟩ <;>
    simp only [line, hp, lineRd4, State.callLine, State.enterCall_emit, ha, State.setInCall, State.setTransport,
      State.logCall, State.setPhase, Transport.resetTimeoutFlag, reduceCtorEq, LineOut.moved.injEq] at h
  subst h; exact .rd4 hp ha

theorem line_id5_moves (hp : s.phase = .id5) (h : line s = .moved u) : Moves s u := by
  rcases ha : s.transport.answers with _ | ⟨x, xs⟩ <;>
    simp only [line, hp, lineId5, State.callLine, State.enterCall_emit, ha, State.setInCall, State.setTransport,
      State.logCall, State.setPhase, Transport.resetTimeoutFlag, reduceCtorEq, LineOut.moved.injEq] at h
  subst h; exact .id5 hp ha

theorem line_rd5_moves (hp : s.phase = .rd5) (h : line s = .moved u) : Moves s u := by
  rcases ha : s.transport.answers with _ | ⟨x, xs⟩ <;>
    simp only [line, hp, lineRd5, State.callLine, State.enterCall_id, ha, State.setInCall, State.setTransport, State.logCall, State.setPhase,
      Transport.bytesAvailable, List.length_eq_zero_iff, reduceCtorEq, LineOut.moved.injEq] at h
  subst h; exact .rd5 hp ha

theorem line_id6_moves (hp : s.phase = .id6) (h : line s = .moved u) : Moves s u := by
  rcases ha : s.transport.answers with _ | ⟨x, xs⟩ <;>
    simp only [line, hp, lineId6, State.callLine, State.enterCall_id, ha, State.setInCall, State.setTransport, State.logCall, State.setPhase,
      Transport.bytesAvailable, List.length_eq_zero_iff, reduceCtorEq, LineOut.moved.injEq] at h
  subst h; exact .id6 hp ha

theorem line_id0_moves (hp : s.phase = .id0) (h : line s = .moved u) : Moves s u := by
  simp [line, hp, lineId0, State.plainLine, State.setSlots, State.setIdx, State.setPhase] at h
  subst h; exact .id0 hp

theorem line_id7_moves (hp : s.phase = .id7) (h : line s = .moved u) : Moves s u := by
  simp [line, hp, lineId7, State.plainLine, State.emit, State.setPhase] at h
  subst h; exact .id7 hp

/-- A line that moves does so in one of the ways of `Moves`. -/
theorem moves_of_line (h : line s = .moved u) : Moves s u := by
  cases hp : s.phase
  case idle => simp [line, hp] at h
  case en0 => exact line_en0_moves hp h
  case en1 => exact line_en1_moves hp h
  case en2 => exact line_en2_moves hp h
  case en3 => exact line_en3_moves hp h
  case en4 => exact line_en4_moves hp h
  case en5 => exact line_en5_moves hp h
  case rd0 => exact line_rd0_moves hp h
  case rd1 => exact line_rd1_moves hp h
  case rd2 => exact line_rd2_moves hp h
  case rd3 => exact line_rd3_moves hp h
  case rd4 => exact line_rd4_moves hp h
  case rd5 => exact line_rd5_moves hp h
  case rd6 => exact line_rd6_moves hp h
  case id0 => exact line_id0_moves hp h
  case id1 => exact line_id1_moves hp h
  case id2 => exact line_id2_moves hp h
  case id3 => exact line_id3_moves hp h
  case id4 => exact line_id4_moves hp h
  case id5 => exact line_id5_moves hp h
  case id6 => exact line_id6_moves hp h
  case id7 => exact line_id7_moves hp h
  case id8 => exact line_id8_moves hp h

/-- What a line emits before its call. -/
def Phase.before : Phase → List Event
  | .rd4 | .id5 => [.timedOut]
  | _ => []

/-- A line waits only at its call, with no answer listed; the call has then been made. -/
theorem line_waits_inv (hb : s.phase ≠ .idle) (h : line s = .waits u) :
    s.phase.makesCall = true ∧ s.transport.answers = [] ∧
      u = { s with inCall := true, events := s.events ++ if s.inCall then [] else s.phase.before } := by
  cases hp : s.phase
  case idle => exact absurd hp hb
  case en5 => simp [line, hp, lineEn5, State.plainLine] at h
  case rd6 => simp [line, hp, lineRd6, State.plainLine] at h
  case id0 => simp [line, hp, lineId0, State.plainLine] at h
  case id7 => simp [line, hp, lineId7, State.plainLine] at h
  case id8 => simp [line, hp, lineId8, State.plainLine] at h
  case rd4 | id5 =>
    simp only [line, hp, lineRd4, lineId5] at h
    obtain ⟨ha, rfl⟩ := State.callLine_waits_inv h
    rw [State.enterCall_emit] at ha ⊢
    exact ⟨rfl, ha, by simp [Phase.before, hp]⟩
  all_goals
    simp only [line, hp, lineEn0, lineEn1, lineEn2, lineEn3, lineEn4, lineRd0, lineRd1, lineRd2, lineRd3, lineRd5,
      lineId1, lineId2, lineId3, lineId4, lineId6] at h
    obtain ⟨ha, rfl⟩ := State.callLine_waits_inv h
    rw [State.enterCall_id] at ha ⊢
    exact ⟨rfl, ha, by simp [Phase.before, State.setInCall, hp]⟩

/-- A line stops only where its call has nothing to act on. -/
theorem line_stops_inv {f : Fault} (h : line s = .stops f) :
    ((s.phase = .rd2 ∨ s.phase = .id3) ∧ s.transport.rxq = []) ∨
    ((s.phase = .en1 ∨ s.phase = .en2 ∨ s.phase = .en3 ∨ s.phase = .en4) ∧ s.transport.openTx = none) := by
  cases hp : s.phase
  case rd2 | id3 =>
    rcases ha : s.transport.answers with _ | ⟨x, xs⟩ <;> rcases hq : s.transport.rxq with _ | ⟨b, q⟩ <;>
      simp_all [line, lineRd2, lineId3, State.callLine, State.enterCall_id, State.setInCall, Transport.readByte]
  case en1 | en2 | en3 | en4 =>
    rcases ha : s.transport.answers with _ | ⟨x, xs⟩ <;> rcases ho : s.transport.openTx with _ | ⟨a, bs⟩ <;>
      simp_all [line, lineEn1, lineEn2, lineEn3, lineEn4, State.callLine, State.enterCall_id, State.setInCall,
        Transport.writeByte, Transport.endTransaction]
  all_goals
    rcases ha : s.transport.answers with _ | ⟨x, xs⟩ <;>
      simp [line, hp, lineEn0, lineEn5, lineRd0, lineRd1, lineRd3, lineRd4, lineRd5, lineRd6, lineId0, lineId1,
        lineId2, lineId4, lineId5, lineId6, lineId7, lineId8, State.callLine, State.plainLine, State.enterCall_id,
        State.enterCall_emit, State.setInCall, ha, Transport.beginTransaction, Transport.requestBytes,
        Transport.bytesAvailable, Transport.timeoutFlagSet, Transport.resetTimeoutFlag] at h

end

end Sys2Proof.Machine
end

