-- ==== Sys2Proof/Laws/PerInstr.lean ====
section
/-! SUPPORT. A fact about every operation as syntax, one lemma per constructor: the request word of an operation
matches its row of opcode_table.json (mask `0xFF0000000000`), and its five operand fields stand where R56 puts them. -/

namespace Sys2Proof

/-- The five operand fields of an operation, in the order of the request word. -/
def Instr.fields : Instr → List Byte
  | .encode target command address data count => [target, command, address, data, count]
  | .read target command address data count => [target, command, address, data, count]
  | .readId target command address data count => [target, command, address, data, count]

/-- The request word carries the operation's `op` and its operand fields, each at its place. -/
def Laws.RequestWord.Statement (i : Instr) : Prop :=
  reqOp (encodeReq i) = i.op ∧
    [reqTarget (encodeReq i), reqCommand (encodeReq i), reqAddress (encodeReq i), reqData (encodeReq i),
      reqCount (encodeReq i)] = i.fields

theorem Laws.RequestWord.encode (target command address data count : Byte) :
    Laws.RequestWord.Statement (.encode target command address data count) := by
  simp [Laws.RequestWord.Statement, encodeReq, Instr.op, Instr.fields]

theorem Laws.RequestWord.read (target command address data count : Byte) :
    Laws.RequestWord.Statement (.read target command address data count) := by
  simp [Laws.RequestWord.Statement, encodeReq, Instr.op, Instr.fields]

theorem Laws.RequestWord.readId (target command address data count : Byte) :
    Laws.RequestWord.Statement (.readId target command address data count) := by
  simp [Laws.RequestWord.Statement, encodeReq, Instr.op, Instr.fields]

end Sys2Proof
end

