-- ==== Sys2Proof/WellFormed.lean ====
section
/-! DEFINITION. What the spec asks of an operation before it runs (nothing, R36), the canonical form of its request
word (R60), and the one premise on the parameters (R7). -/

namespace Sys2Proof

/-- Every value 0..255 is legal for every operand of every operation (R36), and an ignored field may hold any value
(R60): the 8-bit type of the fields is the whole check, and no operation is ill-formed. -/
def Instr.wellFormed : Instr → Bool
  | .encode _ _ _ _ _ => true
  | .read _ _ _ _ _ => true
  | .readId _ _ _ _ _ => true

/-- The canonical form puts `0x00` into every field the operation does not read (R60). A request that is not
canonical is accepted all the same. -/
def Instr.canonical : Instr → Bool
  | .encode _ _ _ _ count => count == 0x00
  | .read _ command address data _ => command == 0x00 && address == 0x00 && data == 0x00
  | .readId _ command address data count =>
    command == 0x00 && address == 0x00 && data == 0x00 && count == 0x00

/-- The premise of R7 (U16): the three module addresses are distinct. -/
def Params.addressesDistinct (p : Params) : Bool :=
  p.holderAddr != p.cart0Addr && p.holderAddr != p.cart1Addr && p.cart0Addr != p.cart1Addr

end Sys2Proof
end

