-- ==== Sys2Proof/Tests/Slice0.lean ====
section
/-! SUPPORT. The model's own tests. Expected values are those of 95_test_vectors.md (the row is named) or of the rule
named. Then one witness for each statement that has hypotheses: a concrete case that meets all of them together. -/

namespace Sys2Proof.Tests

open Sys2Proof Sys2Proof.Machine

/-! ### Helpers -/

/-- The transport does nothing of its own accord. -/
def quiet : Answer := ⟨false, false, none⟩
/-- The transport sets its time-out flag. -/
def late : Answer := ⟨true, false, none⟩
/-- The transport sets its time-out flag, after the call's own effect. -/
def lateAfter : Answer := ⟨false, true, none⟩
/-- The transport has the bytes `q` in its queue. -/
def gives (q : List Byte) : Answer := ⟨false, false, some q⟩

/-- After reset, the transport with these answers. -/
def ready (xs : List Answer) : State := State.reset.setTransport { Transport.launch with answers := xs }
/-- As `ready`, with `TFLAG` set. -/
def stale (xs : List Answer) : State := State.reset.setTransport { Transport.launch with answers := xs, tflag := true }

/-- What a test looks at in a next state; nothing of a fault or a refusal. -/
def look {β : Type} (f : State → β) : Host.Outcome State Fault Refusal → Option β
  | .next s => some (f s)
  | .fault _ => none
  | .refused _ => none

/-- The response words, and the status after. -/
def answer (s : State) : List RspWord × Bool × Bool := (s.events.map Event.rsp, s.busy, s.transport.tflag)

/-! ### WellFormed -/

/-- R60: the one form check there is, the canonical form, refuses each operation with an ignored field that is not zero. -/
theorem test_canonical_refuses :
    (Instr.encode 0x24 0x06 0x10 0x07 0xFF).canonical = false ∧ (Instr.read 0x24 0x01 0 0 4).canonical = false ∧
    (Instr.read 0x24 0 0x01 0 4).canonical = false ∧ (Instr.read 0x24 0 0 0x01 4).canonical = false ∧
    (Instr.readId 0x24 0x01 0 0 0).canonical = false ∧ (Instr.readId 0x24 0 0x01 0 0).canonical = false ∧
    (Instr.readId 0x24 0 0 0x01 0).canonical = false ∧ (Instr.readId 0x24 0 0 0 4).canonical = false ∧
    (Instr.encode 0x24 0x06 0x10 0x07 0).canonical = true ∧ (Instr.read 0x24 0 0 0 4).canonical = true ∧
    (Instr.readId 0x24 0 0 0 0).canonical = true := by decide

/-- R36: but every operation is well formed. -/
theorem test_wellFormed_accepts :
    (Instr.encode 0xFF 0xFF 0xFF 0xFF 0xFF).wellFormed = true ∧ (Instr.read 0xFF 0xFF 0xFF 0xFF 0).wellFormed = true ∧
    (Instr.readId 0xFF 0xFF 0xFF 0xFF 0xFF).wellFormed = true := by decide

/-- The binding `B_ex` of 95_test_vectors.md B4. -/
def exampleParams : Params :=
  { holderAddr := 0x50, cart0Addr := 0x51, cart1Addr := 0x52, cmdFanPwm := 0xA0, cmdLedPwm0 := 0, cmdLedPwm1 := 0, cmdLedPwmMore := [],
    cmdEeWrite := 0xA1, cmdEeRead := 0xA2, cmdReadSerial := 0, cmdReadSize := 0xA6, cmdReadType := 0xA5,
    cmdReadStation := 0xA4, cmdReadError := 0xA8, cmdReadFwver := 0xA9, cmdClearError := 0xAC,
    cmdReadVsense := 0xAA, cmdReadGpioSw := 0xAB, cmdReadMaterial := 0xA7, cmdGetId := 0xA3,
    indOnPkt := ⟨0xAD, 0xFF, 0x01⟩, indOffPkt := ⟨0xAD, 0xFF, 0x00⟩, serialPadPrecision := 5 }

/-- R7: equal module addresses are refused, one pair at a time. -/
theorem test_addresses_distinct :
    exampleParams.addressesDistinct = true ∧
    Params.addressesDistinct { exampleParams with cart0Addr := 0x50 } = false ∧
    Params.addressesDistinct { exampleParams with cart1Addr := 0x50 } = false ∧
    Params.addressesDistinct { exampleParams with cart1Addr := 0x51 } = false := by decide

/-! ### Decoding: words written out from R56 and R58 -/

/-- ENCODE, bit by bit: op 00000000, target 00100100, command 00000110, address 00010000, data 00000111, count 0 (E1). -/
theorem test_decode_encode :
    decodeReq 0b000000000010010000000110000100000000011100000000 = .ok (.encode 0x24 0x06 0x10 0x07 0) := by rfl

/-- READ, bit by bit: op 00000001, target 01010001, three ignored fields, count 00000100 (RV4). -/
theorem test_decode_read :
    decodeReq 0b000000010101000100000000000000000000000000000100 = .ok (.read 0x51 0 0 0 4) := by rfl

/-- READ_ID, bit by bit: op 00000010, target 00100100, ignored fields zero (X3). -/
theorem test_decode_readId :
    decodeReq 0b000000100010010000000000000000000000000000000000 = .ok (.readId 0x24 0 0 0 0) := by rfl

/-- X1, X2: reserved `op` values. -/
theorem test_decode_reserved :
    decodeReq 0x030000000000 = .error (.reservedOp 0x03) ∧ decodeReq 0xFF2406100700 = .error (.reservedOp 0xFF) :=
  ⟨rfl, rfl⟩

/-- E7, RV13 and the rows of opcode_table.json. -/
theorem test_decodeTableWord :
    decodeTableWord 48 0x007F80010200 = some (.encode 0x7F 0x80 0x01 0x02 0) ∧
    decodeTableWord 48 0x01FF000000FF = some (.read 0xFF 0 0 0 0xFF) ∧
    decodeTableWord 48 0x025200000000 = some (.readId 0x52 0 0 0 0) ∧
    decodeTableWord 48 0x030000000000 = none := by decide

/-- R52, E1 and E9: the packet as a number, data before address. -/
theorem test_packetWord : packetWord 0x06 0x10 0x07 = 0x060710 ∧ packetWord 0xA1 0x02 0x01 = 0xA10102 := by decide

/-! ### ENCODE -/

/-- E7: address and data differ, so a swapped order would show. -/
theorem test_encode_wire :
    look (fun s => (s.transport.wire, answer s)) (exec (.encode 0x7F 0x80 0x01 0x02 0) (ready (List.replicate 5 quiet))) =
      some ([(0x7F, [0x80, 0x02, 0x01])], [0x0400000000], false, false) := by decide

/-- P4 step 1: the flag set during an ENCODE stays set. -/
theorem test_encode_leaves_flag :
    look answer (exec (.encode 0x50 0xA0 0xFF 0x40 0) (ready [quiet, quiet, quiet, quiet, late])) =
      some ([0x0400000000], false, true) := by decide

/-! ### READ -/

/-- RV7: a time-out in the middle; the loop goes on. -/
theorem test_read_timeout_in_the_middle :
    look (fun s => (s.trace, answer s)) (exec (.read 0x51 0 0 0 3)
        (ready ([gives [0xAA, 0xBB, 0xCC]] ++ List.replicate 4 quiet ++ [late] ++ List.replicate 6 quiet))) =
      some ([.requestBytes 0x51 3, .bytesAvailable 3, .readByte 0xAA, .timeoutFlagSet false, .bytesAvailable 2,
          .readByte 0xBB, .timeoutFlagSet true, .resetTimeoutFlag, .bytesAvailable 1,
          .readByte 0xCC, .timeoutFlagSet false, .bytesAvailable 0],
        [0x00000000AA, 0x00000000BB, 0x0100000000, 0x00000000CC, 0x0400000000], false, false) := by decide

/-- RV10: a stale flag and no data: not reported, not cleared. -/
theorem test_read_stale_no_data :
    look (fun s => (s.trace, answer s)) (exec (.read 0x51 0 0 0 1) (stale [quiet, quiet])) =
      some ([.requestBytes 0x51 1, .bytesAvailable 0], [0x0200000000, 0x0400000000], false, true) := by decide

/-! ### READ_ID -/

/-- I10: a surplus byte is read and discarded. -/
theorem test_readId_surplus :
    look (fun s => (s.slots, s.idx.toNat, s.trace.length, s.events.map Event.rsp)) (exec (.readId 0x52 0 0 0 0)
        (ready (gives [0x02, 0x09, 0x0A, 0x14, 0x99] :: List.replicate 16 quiet))) =
      some (⟨2, 9, 10, 20⟩, 4, 17, [0x0309020A0A, 0x0400000000]) := by decide

/-- I14 then I2 on the same block: the slots are fresh. -/
theorem test_readId_slots_are_fresh :
    look (fun s => (s.slots, s.events.map Event.rsp))
      (exec (.readId 0x52 0 0 0 0) { ready (gives [0x02, 0x09, 0x0A] :: List.replicate 10 quiet) with
        slots := ⟨255, 255, 255, 255⟩, idx := 4 }) =
      some (⟨2, 9, 10, 0⟩, [0x03090209F6, 0x0400000000]) := by decide

/-! ### Step -/

/-- X1, X5: the refusals of `step`. -/
theorem test_refusals :
    step (State.reset.withFetchWord 48 0x030000000000) = .refused (.reservedOp 0x03) ∧
    step { ready [] with phase := .rd0, resetLine := true } = .refused .resetWhileBusy := ⟨rfl, rfl⟩

/-- R172: an operation presented after reset runs as far as its first call. -/
theorem test_withFetchWord_runs :
    look (fun s => (s.phase, s.inCall, s.req)) (step (State.reset.withFetchWord 48 0x002406100700)) =
      some (.en0, true, none) ∧
    look (fun s => (s.phase, s.inCall, s.req)) (step (State.reset.withFetchWord 48 0x025200000000)) =
      some (.id1, true, none) := by decide

/-- U10: outside the invariant. -/
theorem test_readByte_on_empty_queue :
    step { ready [quiet] with phase := .rd2 } = .fault .readByteOnEmptyQueue := by rfl

/-- R21: the flag may be set in any call, in `resetTimeoutFlag` after the clearing too, and in `timeoutFlagSet` after the
answer. -/
theorem test_flag_set_in_flag_calls :
    (Transport.launch.resetTimeoutFlag lateAfter).toOption.map (fun r => r.1.tflag) = some true ∧
    (Transport.launch.resetTimeoutFlag late).toOption.map (fun r => r.1.tflag) = some false ∧
    (Transport.launch.timeoutFlagSet lateAfter).toOption.map (fun r => (r.1.tflag, r.2)) = some (true, false) ∧
    (Transport.launch.timeoutFlagSet late).toOption.map (fun r => (r.1.tflag, r.2)) = some (true, true) := by decide

/-- R62: the enumeration has at least 14 members. -/
theorem test_command_codes (p : Params) : 14 ≤ p.commandCodes.length := by
  simp [Params.commandCodes]

/-! ### The host -/

/-- What an expansion issues, as request words. -/
def requestsOf (l : List Action) : List ReqWord :=
  l.filterMap fun | .issue i _ => some (encodeReq i) | .say _ => none

/-- F4, F6, F7, T3 of B4. -/
theorem test_expand_fan_and_indicator :
    requestsOf (expand exampleParams (.setFan 256)) = [0x0050A0FFFF00] ∧
    requestsOf (expand exampleParams (.setFan 65535)) = [0x0050A0FFFF00] ∧
    requestsOf (expand exampleParams .fanOff) = [0x0050A0FF0000] ∧
    requestsOf (expand exampleParams (.toggleInd 255)) = [0x0050ADFF0100] := by decide

/-- W1, W3, Q1, Q5 of B4. -/
theorem test_expand_requests :
    requestsOf (expand exampleParams (.eeWrite 0x51 0x10 0x07)) = [0x0051A1100700, 0x015100000001] ∧
    requestsOf (expand exampleParams (.eeRead 0x51 0x10)) = [0x0051A210FF00, 0x015100000001] ∧
    requestsOf (expand exampleParams (.getId 0x52)) = [0x0052A3FFFF00, 0x025200000000] ∧
    requestsOf (expand exampleParams (.getMaterial 0x52)) = [0x0052A7FFFF00, 0x015200000001] := by decide

/-- V1, V3, S1, S2, CE1 of B4. -/
theorem test_expand_address_checks :
    expand exampleParams (.getVsense 0x50) = [] ∧
    requestsOf (expand exampleParams (.getVsense 0x52)) = [0x0052AAFFFF00, 0x015200000001] ∧
    requestsOf (expand exampleParams (.getGpioSw 0x52)) = [0x0052ABFFFF00, 0x015200000001] ∧
    expand exampleParams (.getGpioSw 0x51) = [] ∧
    requestsOf (expand exampleParams (.clearErr 0x51)) = [0x0051ACFFFF00] := by decide

/-- Z1, Z2, Z3, Z10, Z18, Z21 of B5. -/
theorem test_padZeros :
    padZeros 5 4 ++ decimal 5 = ['0', '0', '0', '5'] ∧ padZeros 2570 4 = [] ∧
    padZeros 0 4 ++ decimal 0 = ['0', '0', '0', '0', '0'] ∧ padZeros 10000 4 = [] ∧
    (padZeros 42 11).length = 8 ∧ padZeros 1000000000 10 = [] := by decide

/-- P3 step 1: the three lines of an identification, type first, the serial with precision 5. -/
theorem test_report_ident :
    reportEvent exampleParams .ident (.ident 9 2 2570) =
      [⟨.peripheralType, ['9']⟩, ⟨.station, ['2']⟩, ⟨.serial, ['0', '2', '5', '7', '0']⟩] := by decide

/-! ### Witnesses: the hypotheses of each statement, met together -/

theorem witness_EncodeOfDecode : decodeReq 0x0024061007FF = .ok (.encode 0x24 0x06 0x10 0x07 0xFF) := by rfl

theorem witness_ReservedRequestRefused :
    ((ready []).setReq (some 0x030000000000)).resetLine = false ∧
    ((ready []).setReq (some 0x030000000000)).phase = .idle ∧ 3 ≤ (reqOp 0x030000000000).toNat ∧
    3 ≤ (reqOp 0xFF0000000000).toNat := by decide

theorem witness_ResponseWordsOfEvents : (Event.ident 9 2 2570).rsp = (Event.ident 9 2 2570).rsp := rfl

theorem witness_StepRunsPresentedOperation :
    ((ready []).setReq (some 0x0024061007FF)).resetLine = false ∧
    ((ready []).setReq (some 0x0024061007FF)).phase = .idle ∧
    decodeReq 0x0024061007FF = .ok (.encode 0x24 0x06 0x10 0x07 0xFF) := ⟨rfl, rfl, rfl⟩

theorem witness_ResetInputOnIdleBlock :
    ({ stale [] with resetLine := true } : State).resetLine = true ∧
    ({ stale [] with resetLine := true } : State).phase = .idle := ⟨rfl, rfl⟩

theorem witness_ResetRefusedExactlyWhileBusy :
    ({ ready [] with resetLine := true, phase := .en1 } : State).resetLine = true ∧
    ({ ready [] with resetLine := true, phase := .en1 } : State).busy = true ∧
    ({ ready [] with resetLine := true } : State).resetLine = true ∧
    ({ ready [] with resetLine := true } : State).busy = false := by decide

theorem witness_RequestWhileBusyNotAccepted : ({ ready [] with phase := .id8 } : State).busy = true := by decide

/-- A READ that waits at its first call, and what comes next listed. -/
def waitingRead : State :=
  { ready [gives [0x5A], quiet] with phase := .rd0, inCall := true, latches := ⟨0x01, 0x24, 0, 0, 0, 1⟩ }

theorem witness_RunningOperationIgnoresPort :
    waitingRead.resetLine = false ∧ waitingRead.busy = true ∧ ∃ u, step waitingRead = .next u :=
  ⟨rfl, rfl, _, rfl⟩

theorem witness_LatchesHoldTheRequest :
    ((ready []).phase = .idle ∧ decodeReq 0x01FF000000FF = .ok (.read 0xFF 0 0 0 0xFF) ∧
      ∃ u, exec (.read 0xFF 0 0 0 0xFF) (ready []) = .next u) ∧
    (waitingRead.resetLine = false ∧ waitingRead.busy = true ∧ ∃ u, step waitingRead = .next u) :=
  ⟨⟨rfl, rfl, _, rfl⟩, rfl, rfl, _, rfl⟩

theorem witness_IdleMachineStays :
    (ready []).resetLine = false ∧ (ready []).phase = .idle ∧ (ready []).req = none ∧
    (ready []).dispatcher.taken = (ready []).events.length ∧ (ready []).dispatcher.todo = [] ∧
    (ready []).dispatcher.program = [] := by decide

theorem witness_EncodeCompletes :
    (ready [quiet, late, quiet, gives [1], quiet, quiet]).phase = .idle ∧
    [quiet, late, quiet, gives [1], quiet].length = 5 ∧
    (ready [quiet, late, quiet, gives [1], quiet, quiet]).transport.answers =
      [quiet, late, quiet, gives [1], quiet] ++ [quiet] := by decide

theorem witness_EncodeCompletes_example :
    (ready (List.replicate 5 quiet)).phase = .idle ∧ (List.replicate 5 quiet).length = 5 ∧
    (ready (List.replicate 5 quiet)).transport.answers = List.replicate 5 quiet := by decide

theorem witness_EncodeStaysAtPendingCall :
    ((ready []).phase = .idle ∧ (ready []).transport.answers.length < 5) ∧
    ((ready (List.replicate 4 quiet)).phase = .idle ∧
      (ready (List.replicate 4 quiet)).transport.answers.length < 5) := by decide

theorem witness_EncodeFrame :
    (∃ u, exec (.encode 0x24 0x06 0x10 0x07 0) (stale (List.replicate 5 quiet)) = .next u) ∧
    (stale (List.replicate 5 quiet)).transport.tflag = true ∧
    ∀ x ∈ (stale (List.replicate 5 quiet)).transport.answers, Answer.keepsQueue x :=
  ⟨⟨_, rfl⟩, rfl, by simp [stale, quiet, Answer.keepsQueue, List.replicate]⟩

theorem witness_ReadNoDataCompletes :
    (stale [late, quiet]).phase = .idle ∧ (stale [late, quiet]).transport.answers = late :: quiet :: [] ∧
    Answer.queueAfter quiet (Answer.queueAfter late (stale [late, quiet]).transport.rxq) = [] := by decide

/-- Two bytes, a time-out at the first, for any of the reading statements. -/
def twoBytes : List Answer := [gives [0xAA, 0xBB], quiet, late] ++ List.replicate 7 quiet

theorem witness_ReadCompletes :
    ((ready twoBytes).phase = .idle ∧
      (ready twoBytes).transport.answers = gives [0xAA, 0xBB] :: quiet :: (late :: List.replicate 7 quiet) ∧
      (∀ x ∈ quiet :: late :: List.replicate 7 quiet, Answer.keepsQueue x) ∧
      [0xAA, 0xBB] = Answer.queueAfter (gives [0xAA, 0xBB]) (ready twoBytes).transport.rxq ∧
      4 * [(0xAA : Byte), 0xBB].length ≤ (late :: List.replicate 7 quiet).length) ∧
    ((ready [quiet, quiet]).phase = .idle ∧ (ready [quiet, quiet]).transport.answers = quiet :: quiet :: [] ∧
      (∀ x ∈ quiet :: ([] : List Answer), Answer.keepsQueue x) ∧
      [] = Answer.queueAfter quiet (ready [quiet, quiet]).transport.rxq ∧
      4 * ([] : List Byte).length ≤ ([] : List Answer).length) :=
  ⟨⟨rfl, rfl, by simp [quiet, late, Answer.keepsQueue, List.replicate], rfl, by decide⟩,
    rfl, rfl, by simp [quiet, Answer.keepsQueue], rfl, by decide⟩

theorem witness_ReadTraceLaw :
    (ready twoBytes).phase = .idle ∧
    (ready twoBytes).transport.answers = gives [0xAA, 0xBB] :: (quiet :: late :: List.replicate 7 quiet) ∧
    (∀ x ∈ quiet :: late :: List.replicate 7 quiet, Answer.keepsQueue x) ∧
    [0xAA, 0xBB] = Answer.queueAfter (gives [0xAA, 0xBB]) (ready twoBytes).transport.rxq ∧
    ∃ u, exec (.read 0x51 0 0 0 2) (ready twoBytes) = .next u ∧ u.phase = .idle :=
  ⟨rfl, rfl, by simp [quiet, late, Answer.keepsQueue, List.replicate], rfl, _, rfl, rfl⟩

theorem witness_ReadTraceLaw_example :
    (ready (gives [0x5A] :: List.replicate 4 quiet)).phase = .idle ∧ gives [0x5A] = ⟨false, false, some [0x5A]⟩ ∧
    (ready (gives [0x5A] :: List.replicate 4 quiet)).transport.tflag = false ∧
    (ready (gives [0x5A] :: List.replicate 4 quiet)).transport.answers =
      gives [0x5A] :: List.replicate 4 ⟨false, false, none⟩ := by decide

/-- An operation on a reply that changes while it is read (TA2 false). -/
theorem witness_ReadEventShape :
    (ready ([gives [1], quiet, late, gives [2, 3]] ++ List.replicate 12 quiet)).phase = .idle ∧
    ∃ u, exec (.read 0x51 0 0 0 1) (ready ([gives [1], quiet, late, gives [2, 3]] ++ List.replicate 12 quiet)) =
      .next u ∧ u.phase = .idle := ⟨rfl, _, rfl, rfl⟩

theorem witness_ReadFrame : ∃ u, exec (.read 0x51 0 0 0 2) (ready twoBytes) = .next u := ⟨_, rfl⟩

/-- The flag is seen and reset after the first byte (RV8); what follows sets it no more. -/
theorem witness_ObservedTimeoutIsNotReportedAgain :
    (ready (twoBytes ++ List.replicate 9 quiet)).phase = .idle ∧
    (ready (twoBytes ++ List.replicate 9 quiet)).transport.answers =
      [gives [0xAA, 0xBB], quiet, late, quiet] ++ [quiet] ++ (List.replicate 5 quiet ++ List.replicate 9 quiet) ∧
    quiet.setsFlagAfter = false ∧
    (∀ y ∈ List.replicate 5 quiet ++ List.replicate 9 quiet, Answer.touchesFlag y = false) ∧
    ∃ w u, exec (.read 0x51 0 0 0 2) ((ready (twoBytes ++ List.replicate 9 quiet)).withAnswers
        ([gives [0xAA, 0xBB], quiet, late, quiet] ++ [quiet])) = .next w ∧
      w.trace = (ready []).trace ++ [.requestBytes 0x51 2, .bytesAvailable 2, .readByte 0xAA, .timeoutFlagSet true] ++
        [.resetTimeoutFlag] ∧
      exec (.read 0x51 0 0 0 2) (ready (twoBytes ++ List.replicate 9 quiet)) = .next u :=
  ⟨rfl, rfl, rfl, by simp [quiet, Answer.touchesFlag, List.replicate], _, _, rfl, rfl, rfl⟩

theorem ready_flagQuiet (n : Nat) (q : List Byte) : (ready (gives q :: List.replicate n quiet)).transport.flagQuiet :=
  ⟨rfl, fun x hx => by
    rcases List.mem_cons.mp hx with h | h
    · rw [h]; rfl
    · rw [List.eq_of_mem_replicate h]; rfl⟩

theorem witness_ObservedTimeoutIsNotReportedAgain_exec :
    (ready (gives [1] :: List.replicate 4 quiet)).phase = .idle ∧
    (ready (gives [1] :: List.replicate 4 quiet)).transport.flagQuiet ∧
    ∃ u, exec (.readId 0x52 0 0 0 0) (ready (gives [1] :: List.replicate 4 quiet)) = .next u :=
  ⟨rfl, ready_flagQuiet 4 [1], _, rfl⟩

theorem waitingRead_inv : waitingRead.Inv := by
  constructor <;>
    simp [waitingRead, ready, State.reset, State.setTransport, Phase.inEncode, Phase.inRead, Phase.inReadId, opRead,
      State.openOk, Dispatcher.start, Phase.makesCall]

theorem witness_ObservedTimeoutIsNotReportedAgain_step :
    waitingRead.Inv ∧ waitingRead.resetLine = false ∧ waitingRead.transport.flagQuiet ∧
    (waitingRead.busy = true → waitingRead.transport.answers ≠ []) ∧ ∃ u, step waitingRead = .next u :=
  ⟨waitingRead_inv, rfl, ready_flagQuiet 1 [0x5A], by decide, _, rfl⟩

theorem witness_StaleTimeoutReportedAfterFirstByte :
    (stale (gives [0x00, 0xFF] :: List.replicate 9 quiet)).phase = .idle ∧
    (stale (gives [0x00, 0xFF] :: List.replicate 9 quiet)).transport.tflag = true ∧
    (stale (gives [0x00, 0xFF] :: List.replicate 9 quiet)).transport.answers =
      gives [0x00, 0xFF] :: List.replicate 9 quiet ∧
    (∀ x ∈ gives [0x00, 0xFF] :: List.replicate 9 quiet, Answer.touchesFlag x = false) ∧
    (∀ x ∈ List.replicate 9 quiet, Answer.keepsQueue x) ∧
    Answer.queueAfter (gives [0x00, 0xFF]) (stale (gives [0x00, 0xFF] :: List.replicate 9 quiet)).transport.rxq =
      0x00 :: [0xFF] ∧
    5 + 4 * [(0xFF : Byte)].length ≤ (List.replicate 9 quiet).length :=
  ⟨rfl, rfl, rfl, by simp [quiet, gives, Answer.touchesFlag, List.replicate], by simp [quiet, Answer.keepsQueue, List.replicate], rfl,
    by decide⟩

theorem witness_ReadsStayAtPendingRequest : (ready []).phase = .idle ∧ (ready []).transport.answers = [] := ⟨rfl, rfl⟩

/-- A READ that stands at its reset of the flag, in the middle of the drain. -/
theorem witness_ReadWaitsAtAnyCall :
    (ready [gives [1, 2], quiet, late, quiet]).phase = .idle ∧
    ∃ u, exec (.read 0x51 0 0 0 2) (ready [gives [1, 2], quiet, late, quiet]) = .next u ∧ u.phase = .rd4 ∧
      u.phase ≠ .idle := ⟨rfl, _, rfl, rfl, by decide⟩

/-- As many bytes as asked for; none asked for; four for READ_ID. -/
theorem witness_HonouredCountBoundsReply :
    (ready (gives [1, 2] :: List.replicate 8 quiet)).phase = .idle ∧
    (∀ x ∈ List.replicate 8 quiet, Answer.keepsQueue x) ∧
    Answer.honoursCount (gives [1, 2]) (2 : Byte).toNat (ready []).transport.rxq ∧
    (∃ u, exec (.read 0x51 0 0 0 2) (ready (gives [1, 2] :: List.replicate 8 quiet)) = .next u) ∧
    Answer.honoursCount quiet (0 : Byte).toNat (ready []).transport.rxq ∧
    (∃ u, exec (.read 0x51 0 0 0 0) (ready [quiet, quiet]) = .next u ∧ u.phase = .idle) ∧
    Answer.honoursCount (gives [2, 9, 10, 20]) 4 (ready []).transport.rxq ∧
    ∃ u, exec (.readId 0x51 0 0 0 0) (ready (gives [2, 9, 10, 20] :: List.replicate 16 quiet)) = .next u :=
  ⟨rfl, by simp [quiet, Answer.keepsQueue, List.replicate], by simp [Answer.honoursCount, Answer.queueAfter, gives],
    ⟨_, rfl⟩, by simp [Answer.honoursCount, Answer.queueAfter, quiet, ready, State.setTransport, Transport.launch],
    ⟨_, rfl, rfl⟩, by simp [Answer.honoursCount, Answer.queueAfter, gives], _, rfl⟩

theorem witness_ReadIdNoDataCompletes :
    (stale [quiet, late]).phase = .idle ∧ (stale [quiet, late]).transport.answers = quiet :: late :: [] ∧
    Answer.queueAfter late (Answer.queueAfter quiet (stale [quiet, late]).transport.rxq) = [] := by decide

/-- Four bytes and a fifth that is discarded (I10). -/
theorem witness_ReadIdCompletes :
    (ready (gives [2, 9, 10, 20, 0x99] :: quiet :: List.replicate 20 late)).phase = .idle ∧
    (ready (gives [2, 9, 10, 20, 0x99] :: quiet :: List.replicate 20 late)).transport.answers =
      gives [2, 9, 10, 20, 0x99] :: quiet :: List.replicate 20 late ∧
    (∀ x ∈ quiet :: List.replicate 20 late, Answer.keepsQueue x) ∧
    [2, 9, 10, 20, 0x99] = Answer.queueAfter (gives [2, 9, 10, 20, 0x99])
      (ready (gives [2, 9, 10, 20, 0x99] :: quiet :: List.replicate 20 late)).transport.rxq ∧
    4 * [(2 : Byte), 9, 10, 20, 0x99].length ≤ (List.replicate 20 late).length :=
  ⟨rfl, rfl, by simp [quiet, late, Answer.keepsQueue, List.replicate], rfl, by decide⟩

/-- Four bytes, and none. -/
theorem witness_ReadIdCompletes_four_and_none :
    ((ready (gives [2, 9, 10, 20] :: quiet :: List.replicate 16 late)).phase = .idle ∧
      (ready (gives [2, 9, 10, 20] :: quiet :: List.replicate 16 late)).transport.answers =
        gives [2, 9, 10, 20] :: quiet :: List.replicate 16 late ∧
      (∀ x ∈ quiet :: List.replicate 16 late, Answer.keepsQueue x) ∧
      [2, 9, 10, 20] = Answer.queueAfter (gives [2, 9, 10, 20])
        (ready (gives [2, 9, 10, 20] :: quiet :: List.replicate 16 late)).transport.rxq ∧
      4 * [(2 : Byte), 9, 10, 20].length ≤ (List.replicate 16 late).length) ∧
    ((ready [quiet, quiet]).phase = .idle ∧ (ready [quiet, quiet]).transport.answers = quiet :: quiet :: [] ∧
      (∀ x ∈ quiet :: ([] : List Answer), Answer.keepsQueue x) ∧
      [] = Answer.queueAfter quiet (ready [quiet, quiet]).transport.rxq ∧
      4 * ([] : List Byte).length ≤ ([] : List Answer).length) :=
  ⟨⟨rfl, rfl, by simp [quiet, late, Answer.keepsQueue, List.replicate], rfl, by decide⟩,
    rfl, rfl, by simp [quiet, Answer.keepsQueue], rfl, by decide⟩

/-- A reply that grows while it is read (TA2 false), with a time-out. -/
theorem witness_ReadIdEventShape :
    (ready ([gives [1], quiet, late, gives [2, 3]] ++ List.replicate 12 quiet)).phase = .idle ∧
    ∃ u, exec (.readId 0x52 0 0 0 0) (ready ([gives [1], quiet, late, gives [2, 3]] ++ List.replicate 12 quiet)) =
      .next u ∧ u.phase = .idle := ⟨rfl, _, rfl, rfl⟩

theorem witness_ReadIdWaitsAtAnyCall :
    (ready [gives [1, 2], quiet, quiet]).phase = .idle ∧
    ∃ u, exec (.readId 0x52 0 0 0 0) (ready [gives [1, 2], quiet, quiet]) = .next u ∧ u.phase = .id4 ∧
      u.phase ≠ .idle := ⟨rfl, _, rfl, rfl, by decide⟩

theorem witness_ReadIdTraceIsReadTrace : (ready twoBytes).phase = .idle := rfl

theorem witness_ReadIdClearsSlots :
    (ready twoBytes).phase = .idle ∧
    ∃ u, exec (.readId 0x52 0 0 0 0) (ready twoBytes) = .next u ∧ u.idx.toNat ≤ 2 := ⟨rfl, _, rfl, by decide⟩

theorem witness_ReadIdFrame : ∃ u, exec (.readId 0x52 0 0 0 0) (ready twoBytes) = .next u := ⟨_, rfl⟩

theorem witness_SerialArithmetic :
    ({ ready [] with phase := .id7 } : State).phase = .id7 ∧ (0 : Byte).toNat ≤ 254 ∧ (254 : Byte).toNat ≤ 254 := by
  decide

theorem witness_OperationEndsOrWaits :
    (ready twoBytes).phase = .idle ∧ (ready []).phase = .idle ∧
    waitingRead.Inv ∧ waitingRead.resetLine = false ∧ waitingRead.busy = true :=
  ⟨rfl, rfl, waitingRead_inv, rfl, rfl⟩

theorem witness_OneDonePerOperation :
    (ready twoBytes).phase = .idle ∧ (∃ u, exec (.readId 0x52 0 0 0 0) (ready twoBytes) = .next u ∧ u.phase = .idle) ∧
    ∃ u, exec (.readId 0x52 0 0 0 0) (ready []) = .next u ∧ u.phase ≠ .idle :=
  ⟨rfl, ⟨_, rfl, rfl⟩, _, rfl, by decide⟩

/-- A step of a busy block that waits again, and one that ends. -/
theorem witness_OneDonePerOperation_step :
    waitingRead.resetLine = false ∧ waitingRead.busy = true ∧ (∃ u, step waitingRead = .next u ∧ u.phase = .rd2) ∧
    ∃ u, step (waitingRead.withAnswers [quiet, quiet]) = .next u ∧ u.phase = .idle :=
  ⟨rfl, rfl, ⟨_, rfl, rfl⟩, _, rfl, rfl⟩

theorem witness_WaitingOperationGoesOn :
    (ready twoBytes).phase = .idle ∧ (ready twoBytes).resetLine = false ∧
    (ready twoBytes).transport.answers = [gives [0xAA, 0xBB], quiet, late] ++ List.replicate 7 quiet ∧
    List.replicate 7 quiet ≠ [] ∧
    ∃ w, exec (.read 0x51 0 0 0 2) ((ready twoBytes).withAnswers [gives [0xAA, 0xBB], quiet, late]) = .next w ∧
      w.busy = true := ⟨rfl, rfl, rfl, by decide, _, rfl, rfl⟩

theorem witness_WaitingOperationGoesOn_step :
    waitingRead.busy = true ∧ waitingRead.resetLine = false ∧
    waitingRead.transport.answers = [gives [0x5A]] ++ [quiet] ∧ [gives [0x5A]] ≠ [] ∧ [quiet] ≠ [] ∧
    ∃ w, step (waitingRead.withAnswers [gives [0x5A]]) = .next w ∧ w.busy = true :=
  ⟨rfl, rfl, rfl, by decide, by decide, _, rfl, rfl⟩

theorem witness_PendingCallTakesFreeAnswer :
    (waitingRead.withAnswers []).resetLine = false ∧ (waitingRead.withAnswers []).inCall = true ∧
    (waitingRead.withAnswers []).phase.makesCall = true ∧ (waitingRead.withAnswers []).transport.answers = [] :=
  ⟨rfl, rfl, rfl, rfl⟩

theorem witness_OneAnswerPerCall :
    (ready twoBytes).phase = .idle ∧ ∃ u, exec (.read 0x51 0 0 0 2) (ready twoBytes) = .next u := ⟨rfl, _, rfl⟩

theorem witness_OperationsKeepNothing :
    (ready twoBytes).phase = .idle ∧ ({ ready twoBytes with slots := ⟨1, 2, 3, 4⟩, idx := 4, events := [.done] } : State).phase = .idle ∧
    (ready twoBytes).transport = ({ ready twoBytes with slots := ⟨1, 2, 3, 4⟩, idx := 4, events := [.done] } : State).transport ∧
    ∃ u, exec (.readId 0x52 0 0 0 0) (ready twoBytes) = .next u := ⟨rfl, rfl, rfl, _, rfl⟩

theorem witness_IgnoredFieldsHaveNoEffect : (ready twoBytes).phase = .idle := rfl

/-- A READ that stands at its reset of the flag, the flag set. -/
def atReset : State :=
  { stale [quiet, quiet] with phase := .rd4, latches := ⟨0x01, 0x24, 0, 0, 0, 1⟩, events := [.byte 1] }

theorem witness_TimeoutFlagIsSticky :
    atReset.transport.tflag = true ∧ ∃ u, step atReset = .next u ∧ u.transport.tflag = false := ⟨rfl, _, rfl, rfl⟩

theorem witness_StreamAndTraceOnlyGrow : atReset.resetLine = false ∧ ∃ u, step atReset = .next u := ⟨rfl, _, rfl⟩

theorem atReset_inv : atReset.Inv := by
  constructor <;>
    simp [atReset, stale, State.reset, State.setTransport, Phase.inEncode, Phase.inRead, Phase.inReadId, opRead,
      State.openOk, Dispatcher.start]

theorem witness_StepKeepsInv : atReset.Inv ∧ ∃ u, step atReset = .next u := ⟨atReset_inv, _, rfl⟩

theorem witness_InvExcludesFaults : atReset.Inv := atReset_inv

theorem witness_PseudoOperationExpansions : (1 : Byte) ≠ 0 ∧ (255 : Byte) ≠ 0 := by decide

theorem witness_OneByteQueries (p : Params) (t : Byte) :
    (PseudoOp.getFwver t, p.cmdReadFwver, Label.fwver) ∈ [(PseudoOp.getStation t, p.cmdReadStation, Label.station),
      (.getType t, p.cmdReadType, .peripheralType), (.getSize t, p.cmdReadSize, .size),
      (.getMaterial t, p.cmdReadMaterial, .material), (.getError t, p.cmdReadError, .error),
      (.getFwver t, p.cmdReadFwver, .fwver)] := by simp

theorem witness_PadZerosWidth :
    1 ≤ 1 ∧ 1 < 10 ^ min 4 10 ∧ 1 ≤ 9999 ∧ 9999 < 10 ^ min 4 10 ∧ 10 ^ (min 4 10 - 1) ≤ 1000 ∧ 10 < 11 := by decide

/-- After reset, the host with this much to do. -/
def hostWith (d : Dispatcher) : State := State.reset.setDispatcher d

theorem witness_HostTurn :
    (hostWith Dispatcher.start).resetLine = false ∧ (hostWith Dispatcher.start).phase = .idle ∧
    (hostWith Dispatcher.start).req = none ∧
    ({ hostWith Dispatcher.start with events := [.done] } : State).dispatcher.taken <
      ({ hostWith Dispatcher.start with events := [.done] } : State).events.length ∧
    (hostWith Dispatcher.start).events.length ≤ (hostWith Dispatcher.start).dispatcher.taken ∧
    (hostWith { Dispatcher.start with todo := [.issue (.readId 0x52 0 0 0 0) .ident] }).dispatcher.todo =
      .issue (.readId 0x52 0 0 0 0) .ident :: [] ∧
    (hostWith { Dispatcher.start with todo := [.say .cleared] }).dispatcher.todo = .say .cleared :: [] ∧
    (hostWith { Dispatcher.start with program := [.pseudo .fanOff] }).dispatcher.program = .pseudo .fanOff :: [] ∧
    (hostWith { Dispatcher.start with program := [.request 0x012400000001 .silent] }).dispatcher.program =
      .request 0x012400000001 .silent :: [] := by decide

/-- The host with an EEPROM read to do, and a transport that answers it with `0x07` (P2 step 2). -/
def eepromReader : State :=
  { hostWith { Dispatcher.start with program := [.pseudo (.eeRead 0x51 0x10)] } with
    transport := { Transport.launch with
      answers := List.replicate 5 quiet ++ ⟨false, false, some [0x07]⟩ :: List.replicate 4 ⟨false, false, none⟩ ++ [late] } }

theorem witness_EepromReadEndToEnd :
    eepromReader.resetLine = false ∧ eepromReader.phase = .idle ∧ eepromReader.req = none ∧
    eepromReader.dispatcher.taken = eepromReader.events.length ∧ eepromReader.dispatcher.todo = [] ∧
    eepromReader.dispatcher.program = .pseudo (.eeRead 0x51 0x10) :: [] ∧ (List.replicate 5 quiet).length = 5 ∧
    (∀ x ∈ List.replicate 5 quiet, Answer.touchesFlag x = false) ∧ eepromReader.transport.tflag = false ∧
    eepromReader.transport.answers =
      List.replicate 5 quiet ++ ⟨false, false, some [0x07]⟩ :: List.replicate 4 ⟨false, false, none⟩ ++ [late] :=
  ⟨rfl, rfl, rfl, rfl, rfl, rfl, rfl, by simp [quiet, Answer.touchesFlag, List.replicate], rfl, rfl⟩

end Sys2Proof.Tests
end

/-! ### A line that moves, a line that waits -/

namespace Sys2Proof.Machine

section
variable {s t u : State}

/-- `Moves` is all a line does when it moves: the converse of `moves_of_line`. -/
theorem line_of_moves (h : Moves s u) : line s = .moved u := by
  cases h
  case en0 hp ha | rd0 hp ha | id1 hp ha =>
    simp [line, hp, lineEn0, lineRd0, lineId1, State.callLine, State.enterCall_id, ha, State.setInCall,
      State.setTransport, State.logCall, State.setPhase, Transport.beginTransaction, Transport.requestBytes, idCount,
      Transport.disturb]
  case en1 hp ha ho | en2 hp ha ho | en3 hp ha ho | en4 hp ha ho =>
    simp [line, hp, lineEn1, lineEn2, lineEn3, lineEn4, State.callLine, State.enterCall_id, ha, State.setInCall,
      State.setTransport, State.logCall, State.setPhase, Transport.writeByte, Transport.endTransaction, ho]
  case rd1z hp ha hz | rd1 hp ha hz | id2z hp ha hz | id2 hp ha hz =>
    rw [Transport.disturb_rxq] at hz
    simp [line, hp, lineRd1, lineId2, State.callLine, State.enterCall_id, ha, State.setInCall,
      State.setTransport, State.logCall, State.setPhase, State.emit, Transport.bytesAvailable, hz, Transport.disturb]
  case rd2 hp ha hq | id3 hp ha hq =>
    simp [line, hp, lineRd2, lineId3, State.callLine, State.enterCall_id, ha, State.setInCall, State.setTransport,
      State.logCall, State.setPhase, State.emit, State.storeReply, State.setSlots, State.setIdx, Transport.readByte, hq,
      Transport.disturb]
  case rd3 hp ha | id4 hp ha =>
    simp [line, hp, lineRd3, lineId4, State.callLine, State.enterCall_id, ha, State.setInCall,
      State.setTransport, State.logCall, State.setPhase, Transport.timeoutFlagSet, Transport.disturb]
  case rd5 x _ hp ha | id6 x _ hp ha =>
    by_cases hz : x.rxq.getD s.transport.rxq = [] <;>
      simp [line, hp, lineRd5, lineId6, State.callLine, State.enterCall_id, ha, State.setInCall, State.setTransport,
        State.logCall, State.setPhase, Transport.bytesAvailable, hz, Transport.disturb]
  case rd4 hp ha | id5 hp ha =>
    simp [line, hp, lineRd4, lineId5, State.callLine, State.enterCall_emit, ha, State.setInCall, State.setTransport,
      State.logCall, State.setPhase, Transport.resetTimeoutFlag, Transport.disturb]
  case en5 hp | rd6 hp | id0 hp | id7 hp | id8 hp =>
    simp [line, hp, lineEn5, lineRd6, lineId0, lineId7, lineId8, State.plainLine, State.emit, State.setPhase,
      State.setSlots, State.setIdx]

/-- The block as it stands at a call that has not returned: the call is made, and what the line emits before it has
been emitted. -/
def State.waiting (s : State) : State :=
  { s with inCall := true, events := s.events ++ if s.inCall then [] else s.phase.before }

/-- With no answer listed, a line that makes a call waits at it. -/
theorem line_waits (hc : s.phase.makesCall = true) (ha : s.transport.answers = []) : line s = .waits s.waiting := by
  cases hp : s.phase
  case idle | en5 | rd6 | id0 | id7 | id8 => simp [hp, Phase.makesCall] at hc
  case rd4 | id5 =>
    simp [line, hp, lineRd4, lineId5, State.callLine, State.enterCall_emit, ha, State.waiting, Phase.before]
  all_goals
    simp [line, hp, lineEn0, lineEn1, lineEn2, lineEn3, lineEn4, lineRd0, lineRd1, lineRd2, lineRd3, lineRd5,
      lineId1, lineId2, lineId3, lineId4, lineId6, State.callLine, State.enterCall_id, ha, State.waiting, Phase.before,
      State.setInCall]

/-- A waiting block goes on as the line it stands at: what stands before the call is not done again. -/
theorem line_waiting (hc : s.phase.makesCall = true) : line s.waiting = line s := by
  cases hp : s.phase
  case idle | en5 | rd6 | id0 | id7 | id8 => simp [hp, Phase.makesCall] at hc
  case rd4 | id5 =>
    simp [line, hp, lineRd4, lineId5, State.callLine, State.enterCall_emit, State.waiting, Phase.before]
  all_goals
    simp [line, hp, lineEn0, lineEn1, lineEn2, lineEn3, lineEn4, lineRd0, lineRd1, lineRd2, lineRd3, lineRd5,
      lineId1, lineId2, lineId3, lineId4, lineId6, State.callLine, State.enterCall_id, State.waiting, Phase.before,
      State.setInCall]

/-- A line that moves is a line of a running operation. -/
theorem Moves.running (h : Moves s u) : s.phase ≠ .idle := by
  intro hp
  have hl := line_of_moves h
  simp [line, hp] at hl

theorem running_of_makesCall (hc : s.phase.makesCall = true) : s.phase ≠ .idle := by
  intro hp
  simp [hp, Phase.makesCall] at hc

end
end Sys2Proof.Machine

/-! ### A run, without its fuel -/

namespace Sys2Proof.Machine

section
variable {s t u : State}

/-- How many lines without a call an operation at a label can still run: EN5 or RD6; ID0, ID7 and ID8. -/
def Phase.plainLeft : Phase → Nat
  | .idle => 0
  | .id0 => 3
  | .id1 | .id2 | .id3 | .id4 | .id5 | .id6 | .id7 => 2
  | _ => 1

/-- A bound on the lines a run can still move through: one for each listed answer, and the lines without a call. -/
def State.linesLeft (s : State) : Nat := s.transport.answers.length + s.phase.plainLeft

theorem Phase.plainLeft_le (p : Phase) : p.plainLeft ≤ 3 := by
  cases p <;> simp [Phase.plainLeft]

/-- Every line that moves uses up an answer, or is one of the lines without a call. -/
theorem Moves.linesLeft_lt (h : Moves s t) : t.linesLeft < s.linesLeft := by
  cases h
  case rd3 hp ha | rd5 hp ha | id4 hp ha | id6 hp ha =>
    simp only [State.linesLeft, hp, ha]
    split <;> simp [Phase.plainLeft]
  all_goals simp [State.linesLeft, Phase.plainLeft, *]

/-- With more fuel than there are lines left, the fuel does not matter. -/
theorem drive_fuel (n m : Nat) (s : State) (hn : s.linesLeft < n) (hm : s.linesLeft < m) : drive n s = drive m s := by
  induction n generalizing m s with
  | zero => omega
  | succ n ih =>
    obtain ⟨m, rfl⟩ : ∃ k, m = k + 1 := ⟨m - 1, by omega⟩
    by_cases hb : s.phase = .idle
    · rw [drive_idle hb, drive_idle hb]
    · cases hl : line s with
      | moved t =>
        have hlt := (moves_of_line hl).linesLeft_lt
        rw [drive_moved hb hl, drive_moved hb hl]
        exact ih m t (by omega) (by omega)
      | waits t => rw [drive_waits hb hl, drive_waits hb hl]
      | stops f => simp [drive, State.busy_iff.mpr hb, hl]

theorem runOp_ended (h : s.phase = .idle) : runOp s = .next s := drive_idle h _

theorem runOp_moves (h : Moves s t) : runOp s = runOp t := by
  have hlt := h.linesLeft_lt
  have hs := s.phase.plainLeft_le
  have ht := t.phase.plainLeft_le
  simp only [State.linesLeft] at hlt
  rw [runOp, drive_moved h.running (line_of_moves h)]
  exact drive_fuel _ _ t (by simp only [State.linesLeft]; omega) (by simp only [State.linesLeft]; omega)

theorem runOp_waits (hc : s.phase.makesCall = true) (ha : s.transport.answers = []) : runOp s = .next s.waiting :=
  drive_waits (running_of_makesCall hc) (line_waits hc ha) _

theorem runOp_stops {f : Fault} (hb : s.phase ≠ .idle) (h : line s = .stops f) : runOp s = .fault f := by
  simp [runOp, drive, State.busy_iff.mpr hb, h]

/-- A run taken up again at the call it waits at is the run. -/
theorem runOp_waiting (hc : s.phase.makesCall = true) : runOp s.waiting = runOp s := by
  have hb := running_of_makesCall hc
  have hl := line_waiting hc
  cases h : line s with
  | moved t => rw [runOp_moves (moves_of_line h), runOp_moves (moves_of_line (hl.trans h))]
  | waits t => rw [runOp, runOp, drive_waits hb h, drive_waits (s := s.waiting) hb (hl.trans h)]
  | stops f => rw [runOp_stops hb h, runOp_stops (s := s.waiting) hb (hl.trans h)]

/-- Induction along a run: it has ended, waits, stops, or goes on after a line that moved. -/
theorem run_induction {P : State → Prop} (ended : ∀ s, s.phase = .idle → P s)
    (waits : ∀ s, s.phase.makesCall = true → s.transport.answers = [] → P s)
    (stops : ∀ s f, s.phase ≠ .idle → line s = .stops f → P s)
    (moves : ∀ s t, Moves s t → P t → P s) (s : State) : P s := by
  induction hn : s.linesLeft using Nat.strong_induction_on generalizing s with
  | _ n ih =>
    by_cases hb : s.phase = .idle
    · exact ended s hb
    · cases hl : line s with
      | moved t =>
        have hm := moves_of_line hl
        exact moves s t hm (ih t.linesLeft (hn ▸ hm.linesLeft_lt) t rfl)
      | waits t =>
        obtain ⟨hc, ha, -⟩ := line_waits_inv hb hl
        exact waits s hc ha
      | stops f => exact stops s f hb hl

/-- What every line that moves keeps, and a line that waits, a run keeps. -/
theorem runOp_keeps {P : State → Prop} (hmoves : ∀ s t, P s → Moves s t → P t)
    (hwaits : ∀ s, P s → s.phase.makesCall = true → P s.waiting) (hs : P s) (h : runOp s = .next u) : P u := by
  refine drive_keeps (P := P) (fun s t hs _ hl => hmoves s t hs (moves_of_line hl)) ?_ _ s u hs h
  intro s t hs hb hl
  obtain ⟨hc, -, rfl⟩ := line_waits_inv hb hl
  exact hwaits s hs hc

/-- A run that gives a next state has ended, or waits at a call with no answer left. -/
theorem runOp_endedOrWaits : runOp s = .next u → u.endedOrWaits := by
  induction s using run_induction with
  | ended s hp => intro h; rw [runOp_ended hp] at h; cases h; exact .inl hp
  | waits s hc ha => intro h; rw [runOp_waits hc ha] at h; cases h; exact .inr ⟨rfl, hc, ha⟩
  | stops s f hb hl => intro h; rw [runOp_stops hb hl] at h; cases h
  | moves s t hm ih => intro h; exact ih (runOp_moves hm ▸ h)

end
end Sys2Proof.Machine

/-! ### Operations and steps -/

namespace Sys2Proof

/-- The latches an operation loads (R13). -/
def Instr.latches : Instr → Machine.Latches
  | .encode t c a d n => ⟨opEncode, t, c, a, d, n⟩
  | .read t c a d n => ⟨opRead, t, c, a, d, n⟩
  | .readId t c a d n => ⟨opReadId, t, c, a, d, n⟩

/-- The label an operation starts at (R15). -/
def Instr.first : Instr → Machine.Phase
  | .encode _ _ _ _ _ => .en0
  | .read _ _ _ _ _ => .rd0
  | .readId _ _ _ _ _ => .id0

end Sys2Proof

namespace Sys2Proof.Machine

section
variable {s u : State} {i : Instr}

/-- The state at the acceptance of an operation: `exec` runs it from here. -/
def State.start (s : State) (i : Instr) : State := s.accept i.latches i.first

theorem exec_eq_startOp (i : Instr) (s : State) : exec i s = startOp i.latches i.first s := by
  cases i <;> rfl

theorem exec_idle (h : s.phase = .idle) (i : Instr) : exec i s = runOp (s.start i) := by
  rw [exec_eq_startOp, startOp_idle h, State.start]

theorem exec_busy (h : s.phase ≠ .idle) (i : Instr) : exec i s = .next s := by
  rw [exec_eq_startOp, startOp_busy h]

theorem start_running (s : State) (i : Instr) : (s.start i).phase ≠ .idle := by
  cases i <;> simp [State.start, Instr.first]

/-- The latches of the operation a word decodes to hold the word's six fields (R13, R56). -/
theorem latches_of_decodeReq {w : ReqWord} (h : decodeReq w = .ok i) :
    i.latches = ⟨reqOp w, reqTarget w, reqCommand w, reqAddress w, reqData w, reqCount w⟩ := by
  unfold decodeReq at h
  split at h
  next ho => cases h; simp [Instr.latches, ho]
  next =>
    split at h
    next ho => cases h; simp [Instr.latches, ho]
    next =>
      split at h
      next ho => cases h; simp [Instr.latches, ho]
      next => cases h

/-! What a step is, by the reset input, `BUSY` and the request port. -/

theorem step_reset (hr : s.resetLine = true) : step s = applyReset s := by
  simp [step, cycle, hr]

theorem step_busy (hr : s.resetLine = false) (hb : s.phase ≠ .idle) : step s = runOp s.drawAnswer := by
  simp [step, cycle, hr, State.busy_iff.mpr hb, resume]

theorem step_request {w : ReqWord} (hr : s.resetLine = false) (hp : s.phase = .idle) (hq : s.req = some w) :
    step s = acceptWord w s := by
  simp [step, cycle, hr, State.not_busy hp, hq]

theorem step_host (hr : s.resetLine = false) (hp : s.phase = .idle) (hq : s.req = none) :
    step s = .next (hostStep Config.params s) := by
  simp [step, cycle, hr, State.not_busy hp, hq]

theorem acceptWord_ok {w : ReqWord} (h : decodeReq w = .ok i) : acceptWord w s = exec i (s.setReq none) := by
  simp [acceptWord, h]

/-- The block after the reset input on an idle block: what is not the block's own stays (R160, R162). -/
def State.afterReset (s : State) : State :=
  { State.reset with
    trace := s.trace
    transport := s.transport
    req := s.req
    dispatcher := { s.dispatcher with taken := 0 } }

/-- Everything a step that gives a next state can be: a reset, a running operation going on, an operation accepted and
run, or an action of the host. -/
theorem step_cases (h : step s = .next u) :
    (s.resetLine = true ∧ s.phase = .idle ∧ u = s.afterReset) ∨
    (s.resetLine = false ∧ s.phase ≠ .idle ∧ runOp s.drawAnswer = .next u) ∨
    (s.resetLine = false ∧ s.phase = .idle ∧ ∃ i, runOp ((s.setReq none).start i) = .next u) ∨
    (s.resetLine = false ∧ s.phase = .idle ∧ u = hostStep Config.params s) := by
  cases hr : s.resetLine with
  | true =>
    rw [step_reset hr] at h
    unfold applyReset at h
    split at h
    next => cases h
    next hb => cases h; exact .inl ⟨rfl, by simpa [State.busy_iff] using hb, rfl⟩
  | false =>
    by_cases hp : s.phase = .idle
    · cases hq : s.req with
      | some w =>
        rw [step_request hr hp hq] at h
        cases hd : decodeReq w with
        | ok i =>
          rw [acceptWord_ok hd, exec_idle (s := s.setReq none) hp] at h
          exact .inr (.inr (.inl ⟨rfl, hp, i, h⟩))
        | error e => simp [acceptWord, hd] at h
      | none =>
        rw [step_host hr hp hq] at h
        cases h
        exact .inr (.inr (.inr ⟨rfl, hp, rfl⟩))
    · exact .inr (.inl ⟨rfl, hp, step_busy hr hp ▸ h⟩)

/-- The host changes the request port and its own state, nothing of the block or the transport (R110); and it takes no
more events than there are (R19). -/
theorem hostStep_frame (p : Params) (s : State) : ∃ r d, hostStep p s = (s.setReq r).setDispatcher d ∧
    (s.dispatcher.taken ≤ s.events.length → d.taken ≤ s.events.length) := by
  simp only [hostStep]
  split
  next => exact ⟨s.req, _, rfl, fun _ => le_rfl⟩
  next =>
    split
    next => exact ⟨_, _, rfl, id⟩
    next => exact ⟨s.req, _, rfl, id⟩
    next =>
      split
      next => exact ⟨s.req, _, rfl, id⟩
      next => exact ⟨_, _, rfl, id⟩
      next => exact ⟨s.req, s.dispatcher, rfl, id⟩

/-! A pending call with no listed answer draws one: all that changes is the transport's answers and draws. -/

theorem drawAnswer_of_answers (h : s.transport.answers ≠ []) : s.drawAnswer = s := by
  cases ha : s.transport.answers with
  | nil => exact absurd ha h
  | cons x xs => simp [State.drawAnswer, ha]

theorem drawAnswer_frame (s : State) : ∃ xs n, s.drawAnswer =
    s.setTransport { s.transport with answers := xs, draws := n } := by
  unfold State.drawAnswer
  split
  next => exact ⟨s.transport.answers, s.transport.draws, rfl⟩
  next => exact ⟨_, _, rfl⟩

@[simp] theorem drawAnswer_phase (s : State) : s.drawAnswer.phase = s.phase := by
  obtain ⟨xs, n, h⟩ := drawAnswer_frame s
  rw [h, State.setTransport_phase]

@[simp] theorem drawAnswer_events (s : State) : s.drawAnswer.events = s.events := by
  obtain ⟨xs, n, h⟩ := drawAnswer_frame s
  rw [h, State.setTransport_events]

end
end Sys2Proof.Machine

/-! ### What a line keeps of the invariant, clause by clause -/

namespace Sys2Proof.Machine

section
variable {s u : State}

/-- `u` has the latches of `s`, and what stands outside an operation: the ports and the host. -/
structure State.sameOutside (s u : State) : Prop where
  latches : u.latches = s.latches
  req : u.req = s.req
  resetLine : u.resetLine = s.resetLine
  dispatcher : u.dispatcher = s.dispatcher

/-- No line changes the latches or what stands outside an operation (R13, R44). -/
theorem Moves.sameOutside (h : Moves s u) : s.sameOutside u := by
  cases h <;> exact ⟨rfl, rfl, rfl, rfl⟩

/-- The stream and the trace only grow (R12, R19). -/
theorem Moves.grows (h : Moves s u) : s.events <+: u.events ∧ s.trace <+: u.trace := by
  cases h <;> simp

/-- A label `q` of an operation comes after a label `p` of that operation. -/
structure Phase.comesBefore (p q : Phase) : Prop where
  encode : q.inEncode = true → p.inEncode = true
  read : q.inRead = true → p.inRead = true
  readId : q.inReadId = true → p.inReadId = true

/-- A line stays in its operation, or ends it. -/
theorem Moves.sameOperation (h : Moves s u) : s.phase.comesBefore u.phase := by
  cases h
  case rd3 hp _ | rd5 hp _ | id4 hp _ | id6 hp _ =>
    dsimp only
    split <;> constructor <;> simp [hp, Phase.inEncode, Phase.inRead, Phase.inReadId]
  all_goals constructor <;> simp [*, Phase.inEncode, Phase.inRead, Phase.inReadId]

/-- After a line that moved no call is pending. -/
theorem Moves.inCall (h : Moves s u) (hs : s.inCall = true → s.phase.makesCall = true) : u.inCall = false := by
  cases h
  case en5 hp | rd6 hp | id0 hp | id7 hp | id8 hp => simpa [hp, Phase.makesCall] using hs
  all_goals rfl

theorem openOk_of_not_inEncode (h : s.phase.inEncode ≠ true) : s.openOk := by
  unfold State.openOk
  split <;> simp_all [Phase.inEncode]

/-- ENCODE's lines write the packet into the open transaction byte by byte (R72). -/
theorem Moves.openOk (h : Moves s u) (hs : s.openOk) : u.openOk := by
  by_cases hu : u.phase.inEncode = true
  · have he := h.sameOperation.encode hu
    cases h
    case en0 | en1 | en2 | en3 | en4 | en5 => simp_all [State.openOk]
    all_goals simp [*, Phase.inEncode] at he
  · exact openOk_of_not_inEncode hu

/-- A byte is read only where `bytesAvailable` has just counted one (R152). -/
theorem Moves.byteThere (h : Moves s u) (hu : u.phase = .rd2 ∨ u.phase = .id3) : u.transport.rxq ≠ [] := by
  cases h
  case rd1 hz | id2 hz => exact hz
  case rd3 | id4 => dsimp only at hu; split at hu <;> simp at hu
  case rd5 x _ _ _ | id6 x _ _ _ =>
    intro hz
    simp only [Transport.disturb_rxq] at hu hz
    simp [hz] at hu
  all_goals simp at hu

/-- The flag is reset only where `timeoutFlagSet` has just answered that it is set (R85, R103). -/
theorem Moves.flagSeen (h : Moves s u) (hu : u.phase = .rd4 ∨ u.phase = .id5) : u.transport.tflag = true := by
  cases h
  case rd3 x _ _ _ | id4 x _ _ _ =>
    dsimp only at hu
    split at hu
    next hf => cases hx : x.setsFlag <;> simp_all [Answer.touchesFlag]
    next => simp at hu
  case rd5 | id6 => dsimp only at hu; split at hu <;> simp at hu
  all_goals simp at hu

theorem nextIdx_toNat {i : BitVec 3} (h : i.toNat ≤ 4) : (nextIdx i).toNat = min (i.toNat + 1) 4 := by
  unfold nextIdx
  split <;> bv_omega

/-- Only the slot written changes (R98). -/
theorem Slots.read_write_of_ne {i : BitVec 3} {j : Nat} (h : i.toNat ≠ j) (b : Byte) (x : Slots) :
    (x.write i b).read j = x.read j := by
  unfold Slots.write
  split <;> unfold Slots.read <;> split <;> simp_all

theorem Slots.read_of_le {j : Nat} (h : 4 ≤ j) (x : Slots) : x.read j = 0 := by
  unfold Slots.read
  split <;> simp_all

theorem Slots.read_zero (j : Nat) : Slots.zero.read j = 0 := by
  unfold Slots.read
  split <;> rfl

/-- `IDX` stays at most 4 (R14). -/
theorem Moves.idxBound (h : Moves s u) (hs : s.idx.toNat ≤ 4) : u.idx.toNat ≤ 4 := by
  cases h
  case id0 => exact Nat.zero_le 4
  case id3 => rw [nextIdx_toNat hs]; omega
  all_goals exact hs

/-- Storing a byte leaves the slots beyond it empty (R97, R98). -/
theorem Slots.unfilled_write {i : BitVec 3} {x : Slots} (hi : i.toNat ≤ 4) (hx : ∀ j, i.toNat ≤ j → x.read j = 0)
    (b : Byte) (j : Nat) (hj : (nextIdx i).toNat ≤ j) : (x.write i b).read j = 0 := by
  rw [nextIdx_toNat hi] at hj
  by_cases h4 : 4 ≤ j
  · exact Slots.read_of_le h4 _
  · rw [Slots.read_write_of_ne (by omega)]
    exact hx j (by omega)

/-- The state READ_ID's slots are in after ID0: zero from `IDX` on (R97). -/
def State.unfilledZero (s : State) : Prop :=
  s.phase.inReadId = true → s.phase ≠ .id0 → ∀ i, s.idx.toNat ≤ i → s.slots.read i = 0

theorem Moves.unfilled (h : Moves s u) (hi : s.idx.toNat ≤ 4) (hs : s.unfilledZero) : u.unfilledZero := by
  intro hu h0 j hj
  have hid := h.sameOperation.readId hu
  cases h
  case id0 => exact Slots.read_zero j
  case id3 hp _ _ => exact Slots.unfilled_write hi (hs hid (by simp [hp])) _ j hj
  case id1 hp _ | id2 hp _ _ | id2z hp _ _ | id4 hp _ | id5 hp _ | id6 hp _ | id7 hp | id8 hp =>
    exact hs hid (by simp [hp]) j hj
  all_goals simp [*, Phase.inReadId] at hid

/-- An operation ends with `Done` (R19). -/
theorem Moves.closed (h : Moves s u) (hu : u.phase = .idle) : u.events.getLast? = some .done := by
  cases h
  case en5 | rd6 | id8 => simp
  case rd3 | rd5 | id4 | id6 => dsimp only at hu; split at hu <;> cases hu
  all_goals cases hu

theorem Moves.keepsInv (h : Moves s u) (hs : s.Inv) : u.Inv where
  opEncode hu := by rw [h.sameOutside.latches]; exact hs.opEncode (h.sameOperation.encode hu)
  opRead hu := by rw [h.sameOutside.latches]; exact hs.opRead (h.sameOperation.read hu)
  opReadId hu := by rw [h.sameOutside.latches]; exact hs.opReadId (h.sameOperation.readId hu)
  callAtLabel hu := by simp [h.inCall hs.callAtLabel] at hu
  openPacket := h.openOk hs.openPacket
  byteThere := h.byteThere
  flagSeen := h.flagSeen
  idxBound := h.idxBound hs.idxBound
  unfilled := h.unfilled hs.idxBound hs.unfilled
  takenBound := by
    obtain ⟨hev, -⟩ := h.grows
    rw [h.sameOutside.dispatcher]
    exact hs.takenBound.trans hev.length_le
  closed hu := .inr (h.closed hu)

theorem waiting_keepsInv (hs : s.Inv) (hc : s.phase.makesCall = true) : s.waiting.Inv where
  opEncode := hs.opEncode
  opRead := hs.opRead
  opReadId := hs.opReadId
  callAtLabel _ := hc
  openPacket := hs.openPacket
  byteThere := hs.byteThere
  flagSeen := hs.flagSeen
  idxBound := hs.idxBound
  unfilled := hs.unfilled
  takenBound := hs.takenBound.trans (by simp [State.waiting])
  closed hp := absurd hp (running_of_makesCall hc)

theorem runOp_keepsInv (hs : s.Inv) (h : runOp s = .next u) : u.Inv :=
  runOp_keeps (P := State.Inv) (fun _ _ hs hm => hm.keepsInv hs) (fun _ => waiting_keepsInv) hs h

/-- The invariant says nothing of the transport's answers and draws. -/
theorem drawAnswer_keepsInv (hs : s.Inv) : s.drawAnswer.Inv := by
  obtain ⟨xs, n, h⟩ := drawAnswer_frame s
  rw [h]
  exact ⟨hs.opEncode, hs.opRead, hs.opReadId, hs.callAtLabel, hs.openPacket, hs.byteThere, hs.flagSeen, hs.idxBound,
    hs.unfilled, hs.takenBound, hs.closed⟩

/-- An accepted operation stands at its first label with its `OP` latched and no call made (R13, R15). -/
theorem start_keepsInv (hs : s.Inv) (i : Instr) : ((s.setReq none).start i).Inv := by
  have hi := hs.idxBound
  have ht := hs.takenBound
  cases i <;> constructor <;>
    simp [State.start, Instr.first, Instr.latches, Phase.inEncode, Phase.inRead, Phase.inReadId, State.openOk, hi, ht]

theorem afterReset_inv (s : State) : s.afterReset.Inv := by
  constructor <;>
    simp [State.afterReset, State.reset, Phase.inEncode, Phase.inRead, Phase.inReadId, State.openOk]

theorem hostStep_keepsInv (hs : s.Inv) (p : Params) : (hostStep p s).Inv := by
  obtain ⟨r, d, h, ht⟩ := hostStep_frame p s
  rw [h]
  exact ⟨hs.opEncode, hs.opRead, hs.opReadId, hs.callAtLabel, hs.openPacket, hs.byteThere, hs.flagSeen, hs.idxBound,
    hs.unfilled, ht hs.takenBound, hs.closed⟩

end

/-- Settles O39: each line keeps the invariant, and so do acceptance, a drawn answer, a reset and the host. -/
theorem stepKeepsInv : Obligations.StepKeepsInv := by
  intro s u hs h
  rcases step_cases h with ⟨-, -, rfl⟩ | ⟨-, -, hrun⟩ | ⟨-, -, i, hrun⟩ | ⟨-, -, rfl⟩
  · exact afterReset_inv s
  · exact runOp_keepsInv (drawAnswer_keepsInv hs) hrun
  · exact runOp_keepsInv (start_keepsInv hs i) hrun
  · exact hostStep_keepsInv hs _

end Sys2Proof.Machine

/-! ### How an operation ends -/

namespace Sys2Proof.Machine

section
variable {s t u : State} {i : Instr}

/-- What a running operation needs so that no call of its faults: ENCODE's open transaction, and a byte where one is
read (R72, R152). -/
def State.callsReady (s : State) : Prop := s.openOk ∧ (s.phase = .rd2 ∨ s.phase = .id3 → s.transport.rxq ≠ [])

theorem State.Inv.callsReady (hs : s.Inv) : s.callsReady := ⟨hs.openPacket, hs.byteThere⟩

theorem start_callsReady (s : State) (i : Instr) : (s.start i).callsReady := by
  cases i <;> simp [State.callsReady, State.start, Instr.first, State.openOk]

theorem line_ne_stops (hs : s.callsReady) (f : Fault) : line s ≠ .stops f := by
  intro h
  obtain ⟨ho, hq⟩ := hs
  rcases line_stops_inv h with ⟨hp, hn⟩ | ⟨hp, hn⟩
  · exact hq hp hn
  · rcases hp with hp | hp | hp | hp <;> simp [State.openOk, hp, hn] at ho

/-- A run whose calls are ready gives a next state. -/
theorem runOp_of_callsReady : s.callsReady → ∃ u, runOp s = .next u := by
  induction s using run_induction with
  | ended s hp => exact fun _ => ⟨s, runOp_ended hp⟩
  | waits s hc ha => exact fun _ => ⟨s.waiting, runOp_waits hc ha⟩
  | stops s f hb hl => exact fun hs => absurd hl (line_ne_stops hs f)
  | moves s t hm ih =>
    intro hs
    rw [runOp_moves hm]
    exact ih ⟨hm.openOk hs.1, hm.byteThere⟩

theorem runOp_ends (hs : s.callsReady) : ∃ u, runOp s = .next u ∧ u.endedOrWaits := by
  obtain ⟨u, hu⟩ := runOp_of_callsReady hs
  exact ⟨u, hu, runOp_endedOrWaits hu⟩

/-- `u` has the events of `s` and some more, none of them `Done`, and then one `Done` if its operation has ended. -/
def State.addsOneDone (s u : State) : Prop :=
  ∃ es, Event.done ∉ es ∧ u.events = s.events ++ es ++ (if u.phase = .idle then [.done] else [])

theorem addsOneDone_refl (hb : s.phase ≠ .idle) : s.addsOneDone s := ⟨[], by simp, by simp [hb]⟩

theorem State.addsOneDone.trans (h : s.addsOneDone t) (hb : t.phase ≠ .idle) (h' : t.addsOneDone u) :
    s.addsOneDone u := by
  obtain ⟨es, hes, he⟩ := h
  obtain ⟨es', hes', he'⟩ := h'
  exact ⟨es ++ es', by simp [hes, hes'], by simp [he', he, hb]⟩

/-- `Done` is emitted by the lines that end the operation, and by no other (R71, R81, R96). -/
theorem Moves.addsOneDone (h : Moves s u) : s.addsOneDone u := by
  cases h
  case en5 | rd6 | id8 => exact ⟨[], by simp, by simp⟩
  case rd1z | id2z => exact ⟨[.noData], by simp, by simp⟩
  case rd2 b _ _ _ _ => exact ⟨[.byte b], by simp, by simp⟩
  case id7 => exact ⟨[s.slots.identEvent], by simp [Slots.identEvent], by simp⟩
  case rd4 | id5 => exact ⟨if s.inCall then [] else [.timedOut], by split <;> simp, by simp⟩
  case rd3 | rd5 | id4 | id6 => exact ⟨[], by simp, by dsimp only; split <;> simp⟩
  all_goals exact ⟨[], by simp, by simp⟩

theorem waiting_addsOneDone (hc : s.phase.makesCall = true) : s.addsOneDone s.waiting := by
  refine ⟨if s.inCall then [] else s.phase.before, ?_, ?_⟩
  · unfold Phase.before
    split
    · simp
    · split <;> simp
  · simp [State.waiting, running_of_makesCall hc]

theorem runOp_addsOneDone (hb : s.phase ≠ .idle) (h : runOp s = .next u) : s.addsOneDone u :=
  runOp_keeps (P := s.addsOneDone) (fun _ _ ht hm => ht.trans hm.running hm.addsOneDone)
    (fun _ ht hc => ht.trans (running_of_makesCall hc) (waiting_addsOneDone hc)) (addsOneDone_refl hb) h

end

/-- Settles O32: what a running operation's calls need holds at acceptance and under the invariant, and the lines left
are fewer with each one that moves. -/
theorem operationEndsOrWaits : Obligations.OperationEndsOrWaits := by
  refine ⟨fun i s hp => ?_, fun s hs hr hb => ?_⟩
  · rw [exec_idle hp]
    exact runOp_ends (start_callsReady s i)
  · rw [step_busy hr (State.busy_iff.mp hb)]
    exact runOp_ends (drawAnswer_keepsInv hs).callsReady

/-- Settles O33: `Done` comes with the line that ends the operation. -/
theorem oneDonePerOperation : Obligations.OneDonePerOperation := by
  refine ⟨fun i s u hp h => ?_, fun s u hr hb h => ?_⟩
  · rw [exec_idle hp] at h
    exact (runOp_addsOneDone (start_running s i) h :)
  · have hb' := State.busy_iff.mp hb
    rw [step_busy hr hb'] at h
    simpa [State.addsOneDone] using runOp_addsOneDone (by simpa using hb') h

end Sys2Proof.Machine

/-! ### What a run only adds to, and what it leaves unchanged -/

namespace Sys2Proof.Machine

section
variable {s t u : State} {i : Instr}

/-- What holds between a state and itself, across a line that moves and a line that waits, and along a chain, holds
across a run. -/
theorem runOp_relates {R : State → State → Prop} (refl : ∀ s, R s s) (trans : ∀ {s t u}, R s t → R t u → R s u)
    (moves : ∀ {s t}, Moves s t → R s t) (waits : ∀ s, R s s.waiting) (h : runOp s = .next u) : R s u :=
  runOp_keeps (P := R s) (fun _ _ hs hm => trans hs (moves hm)) (fun t hs _ => trans hs (waits t)) (refl s) h

theorem State.sameOutside.trans (h : s.sameOutside t) (h' : t.sameOutside u) : s.sameOutside u := by
  constructor
  · rw [h'.latches, h.latches]
  · rw [h'.req, h.req]
  · rw [h'.resetLine, h.resetLine]
  · rw [h'.dispatcher, h.dispatcher]

theorem runOp_sameOutside (h : runOp s = .next u) : s.sameOutside u :=
  runOp_relates (fun _ => ⟨rfl, rfl, rfl, rfl⟩) State.sameOutside.trans Moves.sameOutside
    (fun _ => ⟨rfl, rfl, rfl, rfl⟩) h

theorem drawAnswer_sameOutside (s : State) : s.sameOutside s.drawAnswer := by
  obtain ⟨xs, n, h⟩ := drawAnswer_frame s
  rw [h]
  exact ⟨rfl, rfl, rfl, rfl⟩

theorem step_busy_sameOutside (hr : s.resetLine = false) (hb : s.busy = true) (h : step s = .next u) :
    s.sameOutside u := by
  rw [step_busy hr (State.busy_iff.mp hb)] at h
  exact (drawAnswer_sameOutside s).trans (runOp_sameOutside h)

/-- The stream and the trace of `u` extend those of `s`. -/
def State.extendedBy (s u : State) : Prop := s.events <+: u.events ∧ s.trace <+: u.trace

theorem State.extendedBy.trans (h : s.extendedBy t) (h' : t.extendedBy u) : s.extendedBy u :=
  ⟨h.1.trans h'.1, h.2.trans h'.2⟩

theorem runOp_extends (h : runOp s = .next u) : s.extendedBy u :=
  runOp_relates (fun _ => ⟨List.prefix_rfl, List.prefix_rfl⟩) State.extendedBy.trans Moves.grows
    (fun _ => ⟨List.prefix_append _ _, List.prefix_rfl⟩) h

/-- `TFLAG`, if set in `s`, is set in `u` too, or `T.resetTimeoutFlag()` is among the calls added (R21). -/
def State.flagKept (s u : State) : Prop :=
  ∃ cs, u.trace = s.trace ++ cs ∧ (s.transport.tflag = true → u.transport.tflag = true ∨ Call.resetTimeoutFlag ∈ cs)

theorem State.flagKept.trans (h : s.flagKept t) (h' : t.flagKept u) : s.flagKept u := by
  obtain ⟨cs, hc, hf⟩ := h
  obtain ⟨cs', hc', hf'⟩ := h'
  refine ⟨cs ++ cs', by simp [hc', hc], fun hs => ?_⟩
  rcases hf hs with ht | hr
  · exact (hf' ht).imp_right (List.mem_append_right cs)
  · exact .inr (List.mem_append_left cs' hr)

theorem flagKept_of_eq (hc : u.trace = s.trace) (ht : u.transport.tflag = s.transport.tflag) : s.flagKept u :=
  ⟨[], by simp [hc], fun hs => .inl (ht.trans hs)⟩

/-- Of a line's own calls only `resetTimeoutFlag` clears the flag; what the transport does of its own accord never
does (R21). -/
theorem Moves.flagKept (h : Moves s u) : s.flagKept u := by
  cases h
  case en5 | rd6 | id0 | id7 | id8 => exact flagKept_of_eq rfl rfl
  case rd4 | id5 => exact ⟨_, rfl, fun _ => .inr (by simp)⟩
  all_goals exact ⟨_, rfl, fun hs => .inl (by simp [hs])⟩

theorem runOp_flagKept (h : runOp s = .next u) : s.flagKept u :=
  runOp_relates (fun _ => flagKept_of_eq rfl rfl) State.flagKept.trans Moves.flagKept
    (fun _ => flagKept_of_eq rfl rfl) h

/-- `u` comes after `s` by as many calls as listed answers are used up, the first ones of the list. -/
def State.answered (s u : State) : Prop :=
  ∃ xs cs, s.transport.answers = xs ++ u.transport.answers ∧ u.trace = s.trace ++ cs ∧ cs.length = xs.length

theorem State.answered.trans (h : s.answered t) (h' : t.answered u) : s.answered u := by
  obtain ⟨xs, cs, ha, hc, hl⟩ := h
  obtain ⟨xs', cs', ha', hc', hl'⟩ := h'
  exact ⟨xs ++ xs', cs ++ cs', by simp [ha, ha'], by simp [hc', hc], by simp [hl, hl']⟩

theorem answered_refl (s : State) : s.answered s := ⟨[], [], rfl, by simp, rfl⟩

/-- A line with a call takes one answer and records one call; a line without, none (R12). -/
theorem Moves.answered (h : Moves s u) : s.answered u := by
  cases h
  case en5 | rd6 | id0 | id7 | id8 => exact ⟨[], [], rfl, by simp, rfl⟩
  all_goals exact ⟨[_], [_], by assumption, rfl, rfl⟩

theorem runOp_answered (h : runOp s = .next u) : s.answered u :=
  runOp_relates answered_refl State.answered.trans Moves.answered (fun s => answered_refl s) h

end

/-- Settles O13: acceptance loads the six fields, and no line touches the latches. -/
theorem latchesHoldTheRequest : Obligations.LatchesHoldTheRequest := by
  refine ⟨fun s u w i hp hd h => ?_, fun s u hr hb h => (step_busy_sameOutside hr hb h).latches⟩
  rw [exec_idle hp] at h
  exact (runOp_sameOutside h).latches.trans (latches_of_decodeReq hd)

/-- Settles O36: only the line that calls `T.resetTimeoutFlag()` clears the flag; a reset, an acceptance, a drawn answer
and the host leave it. -/
theorem timeoutFlagIsSticky : Obligations.TimeoutFlagIsSticky := by
  intro s u h hs hu
  have hk : s.flagKept u := by
    rcases step_cases h with ⟨-, -, rfl⟩ | ⟨-, -, hrun⟩ | ⟨-, -, i, hrun⟩ | ⟨-, -, rfl⟩
    · exact flagKept_of_eq rfl rfl
    · obtain ⟨xs, n, hd⟩ := drawAnswer_frame s
      rw [hd] at hrun
      exact (runOp_flagKept hrun :)
    · exact (runOp_flagKept hrun :)
    · obtain ⟨r, d, hh, -⟩ := hostStep_frame Config.params s
      rw [hh]
      exact flagKept_of_eq rfl rfl
  obtain ⟨cs, hc, hf⟩ := hk
  exact ⟨cs, hc, (hf hs).resolve_left (by simp [hu])⟩

/-- Settles O37: every line only appends, and acceptance, a drawn answer and the host leave both lists. -/
theorem streamAndTraceOnlyGrow : Obligations.StreamAndTraceOnlyGrow := by
  intro s u hr h
  have hx : s.extendedBy u := by
    rcases step_cases h with ⟨ht, -, -⟩ | ⟨-, -, hrun⟩ | ⟨-, -, i, hrun⟩ | ⟨-, -, rfl⟩
    · simp [hr] at ht
    · obtain ⟨xs, n, hd⟩ := drawAnswer_frame s
      rw [hd] at hrun
      exact (runOp_extends hrun :)
    · exact (runOp_extends hrun :)
    · obtain ⟨r, d, hh, -⟩ := hostStep_frame Config.params s
      rw [hh]
      exact ⟨List.prefix_rfl, List.prefix_rfl⟩
  obtain ⟨⟨es, he⟩, cs, hc⟩ := hx
  exact ⟨⟨es, he.symm⟩, cs, hc.symm⟩

/-- Settles O55: each line takes an answer and records a call, or does neither. -/
theorem oneAnswerPerCall : Obligations.OneAnswerPerCall := by
  intro i s u hp h
  rw [exec_idle hp] at h
  exact (runOp_answered h :)

end Sys2Proof.Machine

/-! ### Runs side by side: other surroundings, other slots, more answers -/

namespace Sys2Proof.Machine

section
variable {s t u w : State}

/-- A change of the state that no line notices carries over to what a run gives. -/
theorem runOp_map {P : State → Prop} {f : State → State} (hphase : ∀ s, (f s).phase = s.phase)
    (hanswers : ∀ s, (f s).transport.answers = s.transport.answers) (hwaiting : ∀ s, (f s).waiting = f s.waiting)
    (hmoves : ∀ {s t}, P s → Moves s t → Moves (f s) (f t) ∧ P t) :
    P s → runOp s = .next u → runOp (f s) = .next (f u) := by
  induction s using run_induction with
  | ended s hp =>
    intro _ h
    rw [runOp_ended hp] at h
    cases h
    exact runOp_ended (by rw [hphase, hp])
  | waits s hc ha =>
    intro _ h
    rw [runOp_waits hc ha] at h
    cases h
    rw [runOp_waits (by rw [hphase, hc]) (by rw [hanswers, ha]), hwaiting]
  | stops s f hb hl => intro _ h; rw [runOp_stops hb hl] at h; cases h
  | moves s t hm ih =>
    intro hs h
    obtain ⟨hm', ht⟩ := hmoves hs hm
    rw [runOp_moves hm']
    exact ih ht (runOp_moves hm ▸ h)

/-- `s` within the surroundings of `b`: the stream and the trace follow those of `b`, and the request port, the reset
input and the host are those of `b`. -/
def State.within (b s : State) : State :=
  { s with
    events := b.events ++ s.events
    trace := b.trace ++ s.trace
    req := b.req
    resetLine := b.resetLine
    dispatcher := b.dispatcher }

/-- An accepted operation as one that starts on an empty record, within the surroundings it finds; of those only the
slots, and the transport, are the run's to look at. -/
theorem start_eq_within (i : Instr) (h : s.transport = t.transport) :
    t.within ((State.setSlots t.slots { s.start i with events := [], trace := [] }).setIdx t.idx) = t.start i := by
  simp [State.within, State.start, State.accept, State.setSlots, State.setIdx, State.setPhase, State.setInCall,
    State.setLatches, h]

theorem Moves.within (b : State) (h : Moves s u) : Moves (b.within s) (b.within u) := by
  cases h <;> simp only [State.within, ← List.append_assoc]
  case en5 hp => exact .en5 hp
  case rd6 hp => exact .rd6 hp
  case id8 hp => exact .id8 hp
  all_goals constructor <;> assumption

/-- A run does not look at its surroundings (R11, R12, R44). -/
theorem runOp_within (b : State) (h : runOp s = .next u) : runOp (b.within s) = .next (b.within u) :=
  runOp_map (P := fun _ => True) (f := b.within) (fun _ => rfl) (fun _ => rfl)
    (fun s => by cases hc : s.inCall <;> simp [State.waiting, State.within, hc])
    (fun _ hm => ⟨hm.within b, trivial⟩) trivial h

/-- The request port is part of the surroundings. -/
theorem runOp_setReq (r : Option ReqWord) (h : runOp s = .next u) : runOp (s.setReq r) = .next (u.setReq r) := by
  obtain ⟨-, -, hr, hd⟩ := runOp_sameOutside h
  have hw := runOp_within { s with events := [], trace := [], req := r } h
  simpa [State.within, State.setReq, ← hr, ← hd] using hw

theorem drawAnswer_setReq (s : State) (r : Option ReqWord) : (s.setReq r).drawAnswer = s.drawAnswer.setReq r := by
  cases ha : s.transport.answers <;> simp [State.drawAnswer, ha, State.setReq, State.setTransport]

/-- ENCODE and READ do not look at the slots (R14). -/
theorem Moves.withSlots (hs : s.phase.inReadId = false) (h : Moves s u) (x : Slots) (j : BitVec 3) :
    Moves ((s.setSlots x).setIdx j) ((u.setSlots x).setIdx j) ∧ u.phase.inReadId = false := by
  refine ⟨?_, by simpa [hs] using h.sameOperation.readId⟩
  cases h
  case id0 | id1 | id2 | id2z | id3 | id4 | id5 | id6 | id7 | id8 => simp [*, Phase.inReadId] at hs
  case rd6 hp => exact .rd6 hp
  all_goals constructor <;> assumption

/-- What an operation finds in the slots changes nothing but, at most, the slots it leaves: ENCODE and READ do not look
at them, and READ_ID clears them first (R97). -/
theorem runOp_start_withSlots (i : Instr) (x : Slots) (j : BitVec 3) (hp : s.phase = i.first) (h : runOp s = .next u) :
    ∃ y k, runOp ((s.setSlots x).setIdx j) = .next ((u.setSlots y).setIdx k) := by
  by_cases hid : s.phase = .id0
  · rw [runOp_moves (.id0 hid)] at h
    rw [runOp_moves (.id0 (s := (s.setSlots x).setIdx j) hid)]
    exact ⟨u.slots, u.idx, h⟩
  · refine ⟨x, j, ?_⟩
    have hs : s.phase.inReadId = false := by
      cases i <;> simp_all [Instr.first, Phase.inReadId]
    exact runOp_map (P := fun s => s.phase.inReadId = false) (f := fun s => (s.setSlots x).setIdx j)
      (fun _ => rfl) (fun _ => rfl) (fun _ => rfl) (fun hs hm => hm.withSlots hs x j) hs h

/-- A line that moves does not look beyond the answer it takes. -/
theorem Moves.withMoreAnswers (h : Moves s u) (ys : List Answer) :
    Moves (s.withAnswers (s.transport.answers ++ ys)) (u.withAnswers (u.transport.answers ++ ys)) := by
  cases h
  case en5 hp => exact .en5 hp
  case rd6 hp => exact .rd6 hp
  case id8 hp => exact .id8 hp
  all_goals constructor <;> simp_all [State.withAnswers]

/-- A run that waits, given more answers, goes on to what it comes to with all of them at once (R172). -/
theorem runOp_withMoreAnswers (ys : List Answer) : runOp s = .next w → w.phase ≠ .idle →
    runOp (w.withAnswers ys) = runOp (s.withAnswers (s.transport.answers ++ ys)) := by
  induction s using run_induction with
  | ended s hp => intro h hb; rw [runOp_ended hp] at h; cases h; exact absurd hp hb
  | waits s hc ha =>
    intro h _
    rw [runOp_waits hc ha] at h
    cases h
    rw [ha, List.nil_append]
    exact runOp_waiting (s := s.withAnswers ys) hc
  | stops s f hb hl => intro h; rw [runOp_stops hb hl] at h; cases h
  | moves s t hm ih =>
    intro h hb
    rw [runOp_moves (hm.withMoreAnswers ys)]
    exact ih (runOp_moves hm ▸ h) hb

end

/-- Settles O12: the request port is among a run's surroundings, and no line touches port, latches or host. -/
theorem runningOperationIgnoresPort : Obligations.RunningOperationIgnoresPort := by
  intro s u r hr hb h
  obtain ⟨hl, hq, -, hd⟩ := step_busy_sameOutside hr hb h
  refine ⟨?_, hq, hl, hd⟩
  have hb' := State.busy_iff.mp hb
  rw [step_busy hr hb'] at h
  rw [step_busy (s := s.setReq r) hr hb', drawAnswer_setReq]
  exact runOp_setReq r h

/-- Settles O34: the two runs are one run in two surroundings, but for slots the operation does not look at. -/
theorem operationsKeepNothing : Obligations.OperationsKeepNothing := by
  intro i s₁ s₂ u₁ h₁ h₂ ht h
  obtain ⟨w, hw⟩ := runOp_of_callsReady (s := { s₁.start i with events := [], trace := [] }) (start_callsReady s₁ i)
  obtain ⟨y, k, hw₂⟩ := runOp_start_withSlots i s₂.slots s₂.idx rfl hw
  have hu : u₁ = s₁.within w := by
    rw [exec_idle h₁, ← start_eq_within i rfl] at h
    exact Host.Outcome.next.inj (h.symm.trans (runOp_within s₁ hw))
  subst hu
  refine ⟨s₂.within ((w.setSlots y).setIdx k), w.events, w.trace, ?_, rfl, rfl, rfl, rfl, rfl, rfl, rfl⟩
  rw [exec_idle h₂, ← start_eq_within i ht, runOp_within s₂ hw₂]

/-- A `BUSY` step with an answer listed runs on from the state itself. -/
theorem step_busy_of_answers {s : State} (hr : s.resetLine = false) (hb : s.phase ≠ .idle)
    (ha : s.transport.answers ≠ []) : step s = runOp s := by
  rw [step_busy hr hb, drawAnswer_of_answers ha]

/-- Settles O53: a run that waits goes on from where it stands, whether it began with an acceptance or with a step. -/
theorem waitingOperationGoesOn : Obligations.WaitingOperationGoesOn := by
  refine ⟨fun i s w xs ys hp hr ha hy h hw => ?_, fun s w xs ys hb hr ha hx hy h hw => ?_⟩
  · rw [exec_idle (s := s.withAnswers xs) hp] at h
    obtain ⟨-, -, hwr, -⟩ := runOp_sameOutside h
    rw [step_busy_of_answers (s := w.withAnswers ys) (hwr.trans hr) (State.busy_iff.mp hw) hy,
      runOp_withMoreAnswers ys h (State.busy_iff.mp hw), exec_idle hp]
    simp [State.withAnswers, State.start, State.accept, State.setPhase, State.setInCall, State.setLatches, ← ha]
  · have hb' := State.busy_iff.mp hb
    rw [step_busy_of_answers (s := s.withAnswers xs) hr hb' hx] at h
    obtain ⟨-, -, hwr, -⟩ := runOp_sameOutside h
    rw [step_busy_of_answers (s := w.withAnswers ys) (hwr.trans hr) (State.busy_iff.mp hw) hy,
      runOp_withMoreAnswers ys h (State.busy_iff.mp hw), step_busy_of_answers hr hb' (by simp [ha, hx])]
    simp [State.withAnswers, ← ha]

end Sys2Proof.Machine

/-! ### Single steps: reset, acceptance, the busy and the idle block -/

namespace Sys2Proof.Machine

/-- Settles O7: the idle block decodes the presented word and runs the operation, the request withdrawn. -/
theorem stepRunsPresentedOperation : Obligations.StepRunsPresentedOperation := by
  refine ⟨fun s w i hr hp hq hd => ?_, fun s w i hd => ?_⟩
  · rw [step_request hr hp hq, acceptWord_ok hd]
  · have hw : BitVec.ofNat 48 (w.toNat % 2 ^ 48) = w := by
      rw [Nat.mod_eq_of_lt w.isLt, BitVec.ofNat_toNat, BitVec.setWidth_eq]
    have hq : (s.withFetchWord 48 w.toNat).req = some w := congrArg some hw
    rw [step_request rfl rfl hq, acceptWord_ok hd]
    rfl

/-- Settles O8: the three values reset gives. -/
theorem resetLeavesIdle : Obligations.ResetLeavesIdle := ⟨rfl, State.not_busy rfl, rfl⟩

/-- Settles O11: acceptance looks at `BUSY` first. -/
theorem requestWhileBusyNotAccepted : Obligations.RequestWhileBusyNotAccepted :=
  fun i _ hb => exec_busy (State.busy_iff.mp hb) i

/-- Settles O14: it is the host's turn, and the host has nothing to do. -/
theorem idleMachineStays : Obligations.IdleMachineStays := by
  intro s hr hp hq htaken htodo hprogram
  rw [step_host hr hp hq]
  simp [hostStep, htaken, htodo, hprogram]

/-- Settles O38: the state after reset is what the reset input makes of it. -/
theorem resetMeetsInv : Obligations.ResetMeetsInv := afterReset_inv State.reset

end Sys2Proof.Machine

/-! ### What the calls of a READ or READ_ID say of its reports, its `IDX` and the queue -/

namespace Sys2Proof.Machine

section
variable {s t u : State}

/-- The bytes the calls `cs` have read, in order. -/
def bytesRead (cs : List Call) : List Byte := cs.filterMap Call.byteRead

@[simp] theorem bytesRead_nil : bytesRead [] = [] := rfl

@[simp] theorem bytesRead_cons (c : Call) (cs : List Call) : bytesRead (c :: cs) = c.byteRead.toList ++ bytesRead cs := by
  cases h : c.byteRead <;> simp [bytesRead, h]

@[simp] theorem bytesRead_append (cs cs' : List Call) : bytesRead (cs ++ cs') = bytesRead cs ++ bytesRead cs' :=
  List.filterMap_append

/-- The events that report data, and not that there is none, a time-out or the end. -/
def dataEvents (es : List Event) : List Event := es.filter fun e => e ∉ [.noData, .timedOut, .done]

@[simp] theorem dataEvents_append (es es' : List Event) : dataEvents (es ++ es') = dataEvents es ++ dataEvents es' :=
  List.filter_append ..

/-- Between `s` and `u` each byte read has been reported, and no other data. -/
def State.reportsReads (s u : State) : Prop :=
  ∃ cs es, u.trace = s.trace ++ cs ∧ u.events = s.events ++ es ∧ dataEvents es = (bytesRead cs).map .byte

theorem reportsReads_refl (s : State) : s.reportsReads s := ⟨[], [], by simp, by simp, rfl⟩

theorem State.reportsReads.trans (h : s.reportsReads t) (h' : t.reportsReads u) : s.reportsReads u := by
  obtain ⟨cs, es, hc, he, hd⟩ := h
  obtain ⟨cs', es', hc', he', hd'⟩ := h'
  exact ⟨cs ++ cs', es ++ es', by simp [hc', hc], by simp [he', he], by simp [hd, hd']⟩

/-- READ reports the byte it has read at RD2, and nothing else that is data (R84). -/
theorem Moves.reportsReads (h : Moves s u) (hs : s.phase.inRead = true) : s.reportsReads u := by
  cases h
  case rd0 | rd1 | rd3 | rd5 => exact ⟨[_], [], rfl, by simp, rfl⟩
  case rd1z | rd2 => exact ⟨[_], [_], rfl, rfl, rfl⟩
  case rd4 => exact ⟨[_], _, rfl, rfl, by split <;> rfl⟩
  case rd6 => exact ⟨[], [_], by simp, rfl, rfl⟩
  all_goals simp [*, Phase.inRead] at hs

/-- What a line emits before its call is no data. -/
theorem waiting_reportsReads (s : State) : s.reportsReads s.waiting := by
  refine ⟨[], if s.inCall then [] else s.phase.before, by simp [State.waiting], rfl, ?_⟩
  unfold Phase.before
  split
  · rfl
  · split <;> rfl

/-- A line of READ leads to a line of READ, or ends it. -/
theorem Moves.read_or_ended (h : Moves s u) (hs : s.phase.inRead = true) : u.phase ≠ .idle → u.phase.inRead = true := by
  cases h
  case rd3 | rd5 => dsimp only; split <;> simp [Phase.inRead]
  case rd0 | rd1 | rd1z | rd2 | rd4 | rd6 => simp [Phase.inRead]
  all_goals simp [*, Phase.inRead] at hs

theorem runOp_reportsReads (hs : s.phase.inRead = true) (h : runOp s = .next u) : s.reportsReads u := by
  have hp := runOp_keeps (P := fun t => s.reportsReads t ∧ (t.phase ≠ .idle → t.phase.inRead = true))
    (fun _ _ ⟨hd, hr⟩ hm => ⟨hd.trans (hm.reportsReads (hr hm.running)), hm.read_or_ended (hr hm.running)⟩)
    (fun t ⟨hd, hr⟩ _ => ⟨hd.trans (waiting_reportsReads t), hr⟩) ⟨reportsReads_refl s, fun _ => hs⟩ h
  exact hp.1

/-- Premise TA2 for all the answers listed (R23). -/
def Transport.keepsQueue (t : Transport) : Prop := ∀ x ∈ t.answers, Answer.keepsQueue x

theorem Transport.keepsQueue.rxq {t : Transport} (hk : t.keepsQueue) {x : Answer} {xs : List Answer}
    (ha : t.answers = x :: xs) : x.rxq = none := hk x (ha ▸ List.mem_cons_self)

theorem Moves.keepsQueue (h : Moves s u) (hk : s.transport.keepsQueue) : u.transport.keepsQueue := by
  cases h <;> simp_all [Transport.keepsQueue]

/-- Between `s` and `u` the queue has lost the bytes read, and nothing else. -/
def State.drained (s u : State) : Prop :=
  ∃ cs, u.trace = s.trace ++ cs ∧ (bytesRead cs).length + u.transport.rxq.length = s.transport.rxq.length

theorem drained_refl (s : State) : s.drained s := ⟨[], by simp, by simp⟩

theorem State.drained.trans (h : s.drained t) (h' : t.drained u) : s.drained u := by
  obtain ⟨cs, hc, hl⟩ := h
  obtain ⟨cs', hc', hl'⟩ := h'
  exact ⟨cs ++ cs', by simp [hc', hc], by simp; omega⟩

/-- Under TA2 the queue changes by `readByte` alone (R22). -/
theorem Moves.drained (h : Moves s u) (hk : s.transport.keepsQueue) : s.drained u := by
  cases h
  case en5 | rd6 | id0 | id7 | id8 => exact drained_refl _
  case rd2 ha hq | id3 ha hq => exact ⟨[_], rfl, by simp [Call.byteRead, hk.rxq ha, hq, Nat.add_comm]⟩
  all_goals exact ⟨[_], rfl, by simp [Call.byteRead, hk.rxq (by assumption)]⟩

theorem runOp_drained (hk : s.transport.keepsQueue) (h : runOp s = .next u) : s.drained u := by
  have hp := runOp_keeps (P := fun t => s.drained t ∧ t.transport.keepsQueue)
    (fun _ _ ⟨hd, hk⟩ hm => ⟨hd.trans (hm.drained hk), hm.keepsQueue hk⟩) (fun _ hd _ => hd) ⟨drained_refl s, hk⟩ h
  exact hp.1

/-- The labels of READ_ID behind ID0, which clears `IDX` (R97), and the idle block. -/
def Phase.behindId0 (p : Phase) : Prop := p = .idle ∨ (p.inReadId = true ∧ p ≠ .id0)

/-- Between `s` and `u` `IDX` has counted the bytes read, up to 4 (R99). -/
def State.countsReads (s u : State) : Prop :=
  ∃ cs, u.trace = s.trace ++ cs ∧ u.idx.toNat = min (s.idx.toNat + (bytesRead cs).length) 4

theorem State.countsReads.trans (h : s.countsReads t) (h' : t.countsReads u) : s.countsReads u := by
  obtain ⟨cs, hc, hl⟩ := h
  obtain ⟨cs', hc', hl'⟩ := h'
  exact ⟨cs ++ cs', by simp [hc', hc], by simp; omega⟩

theorem countsReads_refl (hi : s.idx.toNat ≤ 4) : s.countsReads s := ⟨[], by simp, by simp [hi]⟩

/-- `IDX` counts the byte read at ID3, and no other line behind ID0 changes it (R99). -/
theorem Moves.countsReads (h : Moves s u) (hs : s.phase.behindId0) (hi : s.idx.toNat ≤ 4) :
    s.countsReads u ∧ u.phase.behindId0 := by
  cases h
  case id3 => exact ⟨⟨[_], rfl, by simp [Call.byteRead, nextIdx_toNat hi]⟩, by simp [Phase.behindId0, Phase.inReadId]⟩
  case id1 | id2 | id2z | id5 =>
    exact ⟨⟨[_], rfl, by simp [Call.byteRead, hi]⟩, by simp [Phase.behindId0, Phase.inReadId]⟩
  case id4 | id6 =>
    exact ⟨⟨[_], rfl, by simp [Call.byteRead, hi]⟩, by dsimp only; split <;> simp [Phase.behindId0, Phase.inReadId]⟩
  case id7 | id8 => exact ⟨⟨[], by simp, by simp [hi]⟩, by simp [Phase.behindId0, Phase.inReadId]⟩
  all_goals simp [*, Phase.behindId0, Phase.inReadId] at hs

theorem runOp_countsReads (hs : s.phase.behindId0) (hi : s.idx.toNat ≤ 4) (h : runOp s = .next u) : s.countsReads u := by
  have hp := runOp_keeps (P := fun t => s.countsReads t ∧ t.phase.behindId0 ∧ t.idx.toNat ≤ 4)
    (fun t v ⟨hc, hb, hi⟩ hm => by
      obtain ⟨hc', hb'⟩ := hm.countsReads hb hi
      exact ⟨hc.trans hc', hb', hm.idxBound hi⟩)
    (fun _ ht _ => ht) ⟨countsReads_refl hi, hs, hi⟩ h
  exact hp.1

/-- READ at RD1 with no data, now or after the call (TA2): if it ends, it has reported that and no more (R83). -/
theorem runOp_rd1_noData (hp : s.phase = .rd1) (hq : s.transport.rxq = []) (hk : s.transport.keepsQueue)
    (h : runOp s = .next u) (hu : u.phase = .idle) : u.events = s.events ++ [.noData, .done] := by
  cases ha : s.transport.answers with
  | nil =>
    rw [runOp_waits (by rw [hp]; rfl) ha] at h
    cases h
    simp [State.waiting, hp] at hu
  | cons x xs =>
    rw [runOp_moves (.rd1z hp ha (by simp [hk.rxq ha, hq])), runOp_moves (.rd6 rfl), runOp_ended rfl] at h
    cases h
    simp

/-- READ behind its first call, answered by `x` (R82). -/
theorem exec_read_requested {x : Answer} {xs : List Answer} (hp : s.phase = .idle) (ha : s.transport.answers = x :: xs)
    (target command address data count : Byte) :
    ∃ r, exec (.read target command address data count) s = runOp r ∧ r.phase = .rd1 ∧ r.events = s.events ∧
      r.trace = s.trace ++ [.requestBytes target count] ∧
      r.transport = { s.transport.disturb x with answers := xs } := by
  have hm : Moves (s.start (.read target command address data count)) _ := .rd0 rfl ha
  exact ⟨_, (exec_idle hp _).trans (runOp_moves hm), rfl, rfl, rfl, rfl⟩

/-- READ_ID behind its first call, answered by `x` (R97, R98). -/
theorem exec_readId_requested {x : Answer} {xs : List Answer} (hp : s.phase = .idle)
    (ha : s.transport.answers = x :: xs) (target command address data count : Byte) :
    ∃ r, exec (.readId target command address data count) s = runOp r ∧ r.phase = .id2 ∧ r.idx = 0 ∧
      r.trace = s.trace ++ [.requestBytes target 4] ∧ r.transport = { s.transport.disturb x with answers := xs } := by
  have h₀ : Moves (s.start (.readId target command address data count)) _ := .id0 rfl
  have h₁ : Moves _ _ := .id1 (s := { s.start (.readId target command address data count) with
    phase := .id1, slots := Slots.zero, idx := 0 }) rfl ha
  exact ⟨_, (exec_idle hp _).trans ((runOp_moves h₀).trans (runOp_moves h₁)), rfl, rfl, rfl, rfl⟩

end

/-- Settles O50: under TA1 the first call leaves at most `count` bytes, under TA2 each byte read is one of those; a
READ reports the bytes it reads, and a READ_ID counts them. -/
theorem honouredCountBoundsReply : Obligations.HonouredCountBoundsReply := by
  intro s u target command address data count x₀ rest hp ha hk
  refine ⟨fun hn h => ?_, fun hn h => ?_⟩
  · obtain ⟨r, hx, hrp, hre, hrc, hrt⟩ := exec_read_requested hp ha target command address data count
    rw [hx] at h
    have hrk : r.transport.keepsQueue := by rw [hrt]; exact hk
    have hrq : r.transport.rxq.length ≤ count.toNat := by rw [hrt]; exact hn
    obtain ⟨cs, es, hc, he, hd⟩ := runOp_reportsReads (by rw [hrp]; rfl) h
    obtain ⟨cs', hc', hl⟩ := runOp_drained hrk h
    obtain rfl : cs = cs' := List.append_cancel_left (hc.symm.trans hc')
    refine ⟨.requestBytes target count :: cs, es, by simp [hc, hrc], ?_, by rw [he, hre], hd, fun h0 hu => ?_⟩
    · exact (Nat.le_of_add_right_le hl.le).trans hrq
    · have hq : r.transport.rxq = [] := List.length_eq_zero_iff.mp (by simpa [h0] using hrq)
      exact List.append_cancel_left (he.symm.trans (runOp_rd1_noData hrp hq hrk h hu))
  · obtain ⟨r, hx, hrp, hri, hrc, hrt⟩ := exec_readId_requested hp ha target command address data count
    rw [hx] at h
    have hrk : r.transport.keepsQueue := by rw [hrt]; exact hk
    have hrq : r.transport.rxq.length ≤ 4 := by rw [hrt]; exact hn
    obtain ⟨cs, hc, hi⟩ := runOp_countsReads (.inr (by simp [hrp, Phase.inReadId])) (by simp [hri]) h
    obtain ⟨cs', hc', hl⟩ := runOp_drained hrk h
    obtain rfl : cs = cs' := List.append_cancel_left (hc.symm.trans hc')
    have hle : (bytesRead cs).length ≤ 4 := (Nat.le_of_add_right_le hl.le).trans hrq
    refine ⟨.requestBytes target 4 :: cs, by simp [hc, hrc], hle, ?_⟩
    rw [hi, hri, Nat.min_eq_left (by simpa using hle)]
    exact Nat.zero_add _

end Sys2Proof.Machine

/-! ### The request word: decoded by `op`, encoded from the latches -/

namespace Sys2Proof

section
variable {w : ReqWord}

/-! What the decoder answers, one equation for each of its branches (R58, R59). -/

theorem decodeReq_of_opEncode (h : reqOp w = opEncode) :
    decodeReq w = .ok (.encode (reqTarget w) (reqCommand w) (reqAddress w) (reqData w) (reqCount w)) :=
  if_pos h

theorem decodeReq_of_opRead (h : reqOp w = opRead) :
    decodeReq w = .ok (.read (reqTarget w) (reqCommand w) (reqAddress w) (reqData w) (reqCount w)) := by
  have hne : opRead ≠ opEncode := by decide
  simp [decodeReq, h, hne]

theorem decodeReq_of_opReadId (h : reqOp w = opReadId) :
    decodeReq w = .ok (.readId (reqTarget w) (reqCommand w) (reqAddress w) (reqData w) (reqCount w)) := by
  have hne : opReadId ≠ opEncode ∧ opReadId ≠ opRead := by decide
  simp [decodeReq, h, hne]

theorem decodeReq_of_reserved (h : 3 ≤ (reqOp w).toNat) : decodeReq w = .error (.reservedOp (reqOp w)) := by
  have hne : ∀ op : Byte, op.toNat ≤ 2 → reqOp w ≠ op := by
    rintro op hop rfl
    omega
  simp [decodeReq, hne opEncode (by decide), hne opRead (by decide), hne opReadId (by decide)]

/-- The `op` values the map of R58 gives a meaning, named. -/
theorem op_of_toNat_le_two {op : Byte} (h : op.toNat ≤ 2) : op = opEncode ∨ op = opRead ∨ op = opReadId := by
  simp only [BitVec.toNat_eq, show opEncode.toNat = 0 from rfl, show opRead.toNat = 1 from rfl,
    show opReadId.toNat = 2 from rfl]
  omega

theorem exists_decodeReq_eq_ok (h : (reqOp w).toNat ≤ 2) : ∃ i, decodeReq w = .ok i := by
  rcases op_of_toNat_le_two h with ho | ho | ho
  · exact ⟨_, decodeReq_of_opEncode ho⟩
  · exact ⟨_, decodeReq_of_opRead ho⟩
  · exact ⟨_, decodeReq_of_opReadId ho⟩

theorem Instr.latches_op (i : Instr) : i.latches.op = i.op := by
  cases i <;> rfl

/-- An operation's request word is the six bytes the operation latches (R13, R56). -/
theorem encodeReq_eq_packReq (i : Instr) : encodeReq i =
    packReq i.latches.op i.latches.target i.latches.command i.latches.address i.latches.data i.latches.count := by
  cases i <;> rfl

end

/-- Settles O2: each operation's word has that operation's `op`, by which the decoder takes its branch, and the five
operand fields where the decoder looks for them. -/
theorem decodeOfEncode : Obligations.DecodeOfEncode := by
  intro i
  have ho := reqOp_encodeReq i
  cases i with
  | encode target command address data count => simpa [encodeReq] using decodeReq_of_opEncode ho
  | read target command address data count => simpa [encodeReq] using decodeReq_of_opRead ho
  | readId target command address data count => simpa [encodeReq] using decodeReq_of_opReadId ho

/-- Settles O3: the operation latches the word's six fields, which are all of the word. -/
theorem encodeOfDecode : Obligations.EncodeOfDecode := by
  intro w i h
  rw [encodeReq_eq_packReq, Machine.latches_of_decodeReq h, packReq_fields]

/-- Settles O4: `op` up to 2 is in the map of R58, and the operation latches it; from 3 on it is reserved (R59). -/
theorem opSelectsOperation : Obligations.OpSelectsOperation := by
  intro w
  rcases Nat.lt_or_ge 2 (reqOp w).toNat with hop | hop
  · rw [decodeReq_of_reserved hop]
    exact ⟨hop, rfl⟩
  · obtain ⟨i, hi⟩ := exists_decodeReq_eq_ok hop
    rw [hi]
    exact ⟨hop, by rw [← i.latches_op, Machine.latches_of_decodeReq hi]⟩

/-- Settles O1: in four of the words `op` is in the map of R58, in the fifth it is reserved. -/
theorem sampleRequestWordsDecode : Obligations.SampleRequestWordsDecode :=
  ⟨decodeReq_of_opEncode rfl, decodeReq_of_opEncode rfl, decodeReq_of_opRead rfl, decodeReq_of_opReadId rfl,
    decodeReq_of_reserved (by decide)⟩

end Sys2Proof

namespace Sys2Proof.Machine

theorem acceptWord_reserved {w : ReqWord} (h : 3 ≤ (reqOp w).toNat) (s : State) :
    acceptWord w s = .refused (.reservedOp (reqOp w)) := by
  simp [acceptWord, decodeReq_of_reserved h]

/-- Settles O5: the idle block decodes the word it is presented, and the decoder rejects this one by name. -/
theorem reservedRequestRefused : Obligations.ReservedRequestRefused := by
  intro s w hr hp hq hop
  rw [step_request hr hp hq, acceptWord_reserved hop]

end Sys2Proof.Machine

/-! ### The response words -/

namespace Sys2Proof.Machine

/-- Two bit vectors put together, as numbers. -/
theorem toNat_append_eq_add {m n : Nat} (x : BitVec m) (y : BitVec n) :
    (x ++ y).toNat = x.toNat * 2 ^ n + y.toNat := by
  rw [BitVec.toNat_append, ← Nat.shiftLeft_add_eq_or_of_lt y.isLt, Nat.shiftLeft_eq]

theorem Event.rsp_byte_toNat (b : Byte) : (Event.byte b).rsp.toNat = b.toNat := by
  rw [Event.rsp, toNat_append_eq_add, BitVec.toNat_setWidth_of_le (by decide)]
  simp

theorem Event.rsp_ident_toNat (ty st : Byte) (n : BitVec 16) : (Event.ident ty st n).rsp.toNat =
    3 * 2 ^ 32 + ty.toNat * 2 ^ 24 + st.toNat * 2 ^ 16 + n.toNat := by
  have hkind : (0x03 : BitVec 8).toNat = 3 := rfl
  simp only [Event.rsp, toNat_append_eq_add, hkind]
  omega

/-- No kind is above `0x04` (R57). -/
theorem Event.rsp_toNat_lt (e : Event) : e.rsp.toNat < 5 * 2 ^ 32 := by
  cases e with
  | byte b => rw [Event.rsp_byte_toNat]; omega
  | ident ty st n => rw [Event.rsp_ident_toNat]; omega
  | timedOut | noData | done => decide

/-- The event a response word stands for, by its kind (R57): `Event.rsp` read backwards. -/
def Event.ofRsp (w : RspWord) : Event :=
  match w.toNat / 2 ^ 32 with
  | 0 => .byte (.ofNat 8 w.toNat)
  | 1 => .timedOut
  | 2 => .noData
  | 3 => .ident (.ofNat 8 (w.toNat / 2 ^ 24)) (.ofNat 8 (w.toNat / 2 ^ 16)) (.ofNat 16 w.toNat)
  | _ => .done

theorem Event.ofRsp_rsp : Function.LeftInverse Event.ofRsp Event.rsp := by
  intro e
  cases e with
  | byte b =>
    have hkind : b.toNat / 2 ^ 32 = 0 := by omega
    simp only [Event.ofRsp, Event.rsp_byte_toNat, hkind, BitVec.ofNat_toNat, BitVec.setWidth_eq]
  | ident ty st n =>
    have hw := Event.rsp_ident_toNat ty st n
    have hkind : (Event.ident ty st n).rsp.toNat / 2 ^ 32 = 3 := by omega
    simp only [Event.ofRsp, hkind, Event.ident.injEq, BitVec.toNat_eq, BitVec.toNat_ofNat]
    omega
  | timedOut | noData | done => rfl

/-- Settles O6: the words as numbers, and the event read back from its word. -/
theorem responseWordsOfEvents : Obligations.ResponseWordsOfEvents :=
  ⟨Event.rsp_byte_toNat, rfl, rfl, rfl, Event.rsp_ident_toNat, Event.rsp_toNat_lt,
    fun _ _ h => Event.ofRsp_rsp.injective h⟩

end Sys2Proof.Machine

/-! ### Latches no line of an operation reads -/

namespace Sys2Proof.Machine

section
variable {s u : State}

/-- `COUNT` holding another value. -/
def State.setCount (n : Byte) (s : State) : State := s.setLatches { s.latches with count := n }

/-- `COMMAND`, `ADDRESS` and `DATA` holding other values. -/
def State.setPacket (c a d : Byte) (s : State) : State :=
  s.setLatches { s.latches with command := c, address := a, data := d }

/-- Of the lines only READ's look at `COUNT` (R60, R81). -/
theorem Moves.setCount (hs : s.phase.inRead = false) (h : Moves s u) (n : Byte) :
    Moves (s.setCount n) (u.setCount n) ∧ u.phase.inRead = false := by
  refine ⟨?_, by simpa [hs] using h.sameOperation.read⟩
  cases h
  case rd0 hp _ => simp [hp, Phase.inRead] at hs
  case en5 hp => exact .en5 hp
  case rd6 hp => exact .rd6 hp
  case id8 hp => exact .id8 hp
  all_goals constructor <;> assumption

/-- Of the lines only ENCODE's look at `COMMAND`, `ADDRESS` and `DATA` (R60, R71). -/
theorem Moves.setPacket (hs : s.phase.inEncode = false) (h : Moves s u) (c a d : Byte) :
    Moves (s.setPacket c a d) (u.setPacket c a d) ∧ u.phase.inEncode = false := by
  refine ⟨?_, by simpa [hs] using h.sameOperation.encode⟩
  cases h
  case en1 hp _ _ | en2 hp _ _ | en3 hp _ _ => simp [hp, Phase.inEncode] at hs
  case en5 hp => exact .en5 hp
  case rd6 hp => exact .rd6 hp
  case id8 hp => exact .id8 hp
  all_goals constructor <;> assumption

theorem runOp_setCount (n : Byte) (hs : s.phase.inRead = false) (h : runOp s = .next u) :
    runOp (s.setCount n) = .next (u.setCount n) :=
  runOp_map (P := fun s => s.phase.inRead = false) (f := State.setCount n) (fun _ => rfl) (fun _ => rfl)
    (fun _ => rfl) (fun hs hm => hm.setCount hs n) hs h

theorem runOp_setPacket (c a d : Byte) (hs : s.phase.inEncode = false) (h : runOp s = .next u) :
    runOp (s.setPacket c a d) = .next (u.setPacket c a d) :=
  runOp_map (P := fun s => s.phase.inEncode = false) (f := State.setPacket c a d) (fun _ => rfl) (fun _ => rfl)
    (fun _ => rfl) (fun hs hm => hm.setPacket hs c a d) hs h

end

/-- Settles O35: the run with the other values is the run with the first ones, under latches it does not look at. -/
theorem ignoredFieldsHaveNoEffect : Obligations.IgnoredFieldsHaveNoEffect := by
  intro s t c a d n c' a' d' n' hp
  simp only [exec_idle hp]
  refine ⟨?_, ?_, ?_⟩
  · obtain ⟨u, hu⟩ := runOp_of_callsReady (start_callsReady s (.encode t c a d n))
    exact ⟨u, hu, runOp_setCount n' rfl hu⟩
  · obtain ⟨u, hu⟩ := runOp_of_callsReady (start_callsReady s (.read t c a d n))
    exact ⟨u, hu, runOp_setPacket c' a' d' rfl hu⟩
  · obtain ⟨u, hu⟩ := runOp_of_callsReady (start_callsReady s (.readId t c a d n))
    exact ⟨u, hu, runOp_setCount n' rfl (runOp_setPacket c' a' d' rfl hu)⟩

end Sys2Proof.Machine

/-! ### ENCODE: where it stands after its first calls -/

namespace Sys2Proof.Machine

/-- The transport calls of ENCODE, in order (R71). -/
def Latches.encodeCalls (l : Latches) : List Call :=
  [.beginTransaction l.target, .writeByte l.command, .writeByte l.data, .writeByte l.address, .endTransaction]

/-- The label ENCODE stands at when `k` of its calls have returned (R71). -/
def encodePhase : Nat → Phase
  | 0 => .en0
  | 1 => .en1
  | 2 => .en2
  | 3 => .en3
  | 4 => .en4
  | _ => .en5

/-- `OPEN` when `k` of ENCODE's calls have returned, `o` being what ENCODE found there (R72). -/
def Latches.encodeOpen (l : Latches) (o : Option (Byte × List Byte)) : Nat → Option (Byte × List Byte)
  | 0 => o
  | 1 => some (l.target, [])
  | 2 => some (l.target, [l.command])
  | 3 => some (l.target, [l.command, l.data])
  | 4 => some (l.target, l.packet)
  | _ => none

/-- What has been handed to the bus when `k` of ENCODE's calls have returned, `w` being what was before: the packet is,
once `T.endTransaction()` has returned (R72). -/
def Latches.encodeWire (l : Latches) (w : List (Byte × List Byte)) (k : Nat) : List (Byte × List Byte) :=
  if k < 5 then w else w ++ [(l.target, l.packet)]

/-- The transport after what it did of its own accord in the calls it answered with `xs`. -/
def Transport.disturbAll (xs : List Answer) (t : Transport) : Transport :=
  { t with tflag := t.tflag || xs.any Answer.touchesFlag, rxq := xs.foldl (fun q x => Answer.queueAfter x q) t.rxq }

/-- An accepted ENCODE (`s`) when its first calls have returned with the answers `xs`, and `rest` is still listed. -/
def State.encodeAt (s : State) (xs rest : List Answer) : State :=
  { s with
    phase := encodePhase xs.length
    inCall := false
    trace := s.trace ++ s.latches.encodeCalls.take xs.length
    transport := { s.transport.disturbAll xs with
      openTx := s.latches.encodeOpen s.transport.openTx xs.length
      wire := s.latches.encodeWire s.transport.wire xs.length
      answers := rest } }

section
variable {s u : State} {target command address data count : Byte} {xs rest : List Answer} {x : Answer}

theorem Transport.disturbAll_append_singleton (xs : List Answer) (x : Answer) (t : Transport) :
    t.disturbAll (xs ++ [x]) = (t.disturbAll xs).disturb x := by
  simp [Transport.disturbAll, Transport.disturb, Answer.queueAfter, Bool.or_assoc]

theorem start_eq_encodeAt (s : State) (target command address data count : Byte) :
    s.start (.encode target command address data count) =
      (s.start (.encode target command address data count)).encodeAt [] s.transport.answers := by
  simp [State.encodeAt, State.start, Instr.first, encodePhase, Latches.encodeOpen, Latches.encodeWire,
    Transport.disturbAll, State.accept, State.setPhase, State.setInCall, State.setLatches]

/-- Each of the lines EN0 to EN4 takes the next answer and makes the next call (R71). -/
theorem encodeAt_moves (h : xs.length < 5) : Moves (s.encodeAt xs (x :: rest)) (s.encodeAt (xs ++ [x]) rest) := by
  have hcalls : s.latches.encodeCalls.length = 5 := rfl
  simp only [State.encodeAt, Transport.disturbAll_append_singleton, List.length_append, List.length_singleton]
  generalize xs.length = k at h ⊢
  rw [← List.take_append_getElem (hcalls ▸ h), ← List.append_assoc]
  interval_cases k
  · exact .en0 rfl rfl
  · exact .en1 (bs := []) rfl rfl rfl
  · exact .en2 (bs := [s.latches.command]) rfl rfl rfl
  · exact .en3 (bs := [s.latches.command, s.latches.data]) rfl rfl rfl
  · exact .en4 rfl rfl rfl

/-- The calls whose answers are listed return one after another. -/
theorem runOp_encodeAt (h : xs.length ≤ 5) (rest : List Answer) :
    runOp (s.encodeAt [] (xs ++ rest)) = runOp (s.encodeAt xs rest) := by
  induction xs using List.reverseRecOn generalizing rest with
  | nil => rfl
  | append_singleton xs x ih =>
    rw [List.length_append, List.length_singleton] at h
    rw [List.append_assoc, List.singleton_append, ih (by omega), runOp_moves (encodeAt_moves (by omega))]

theorem encodePhase_makesCall {k : Nat} (h : k < 5) : (encodePhase k).makesCall = true := by
  interval_cases k <;> rfl

theorem encodePhase_before (k : Nat) : (encodePhase k).before = [] := by
  unfold encodePhase
  split <;> rfl

/-- ENCODE runs on from where its first answers take it. -/
theorem exec_encode_eq (hp : s.phase = .idle) (hx : xs.length ≤ 5) (ha : s.transport.answers = xs ++ rest) :
    exec (.encode target command address data count) s =
      runOp ((s.start (.encode target command address data count)).encodeAt xs rest) := by
  rw [← runOp_encodeAt hx, ← ha, ← start_eq_encodeAt, exec_idle hp]

/-- ENCODE with its five calls answered ends at EN5 (R71, R75). -/
theorem exec_encode_ends (hp : s.phase = .idle) (hx : xs.length = 5) (ha : s.transport.answers = xs ++ rest) :
    exec (.encode target command address data count) s = .next
      { (s.start (.encode target command address data count)).encodeAt xs rest with
        phase := .idle, events := s.events ++ [.done] } := by
  rw [exec_encode_eq hp hx.le ha, runOp_moves (.en5 (by simp [State.encodeAt, hx, encodePhase])), runOp_ended rfl]
  rfl

/-- ENCODE with fewer of its calls answered waits at the next, with no event (R75, R172). -/
theorem exec_encode_waits (hp : s.phase = .idle) (h : s.transport.answers.length < 5) :
    exec (.encode target command address data count) s = .next
      { (s.start (.encode target command address data count)).encodeAt s.transport.answers [] with
        inCall := true } := by
  rw [exec_encode_eq hp h.le (List.append_nil _).symm, runOp_waits (encodePhase_makesCall h) rfl]
  simp [State.waiting, State.encodeAt, encodePhase_before]

/-- Everything ENCODE can come to: not accepted, or after some of its calls, waiting or ended. -/
theorem exec_encode_cases (h : exec (.encode target command address data count) s = .next u) :
    u = s ∨ ∃ xs rest p b es, s.transport.answers = xs ++ rest ∧ (es = [] ∨ es = [.done]) ∧
      u = { (s.start (.encode target command address data count)).encodeAt xs rest with
        phase := p, inCall := b, events := s.events ++ es } := by
  by_cases hp : s.phase = .idle
  · refine .inr ?_
    by_cases hlt : s.transport.answers.length < 5
    · rw [exec_encode_waits hp hlt] at h
      cases h
      refine ⟨s.transport.answers, [], encodePhase s.transport.answers.length, true, [], by simp, .inl rfl, ?_⟩
      rw [List.append_nil]
      rfl
    · have ha := (List.take_append_drop 5 s.transport.answers).symm
      rw [exec_encode_ends hp (List.length_take_of_le (by omega)) ha] at h
      cases h
      exact ⟨_, _, .idle, false, [.done], ha, .inr rfl, rfl⟩
  · rw [exec_busy hp] at h
    cases h
    exact .inl rfl

theorem Latches.encodeWire_cases (l : Latches) (w : List (Byte × List Byte)) (k : Nat) :
    l.encodeWire w k = w ∨ l.encodeWire w k = w ++ [(l.target, l.packet)] := by
  unfold Latches.encodeWire
  split
  · exact .inl rfl
  · exact .inr rfl

/-- Under TA2 the transport's own part leaves `RXQ` as it was (R23). -/
theorem Transport.disturbAll_rxq (h : ∀ x ∈ xs, Answer.keepsQueue x) (t : Transport) :
    (t.disturbAll xs).rxq = t.rxq := by
  simp only [Transport.disturbAll]
  induction xs with
  | nil => rfl
  | cons x xs ih =>
    obtain ⟨hx, hxs⟩ := List.forall_mem_cons.mp h
    simpa [Answer.queueAfter, show x.rxq = none from hx] using ih hxs

end

/-- Settles O15: the state after five calls, with the flag and the queue as the five answers leave them. -/
theorem encodeCompletes : Obligations.EncodeCompletes := by
  refine ⟨fun s target command address data count xs rest hp hx ha => ?_, by decide, by decide,
    fun s xs hp hx ha => ?_⟩
  · rw [exec_encode_ends hp hx ha]
    simp only [State.encodeAt, hx]
    rfl
  · refine ⟨_, exec_encode_ends hp hx (ha.trans xs.append_nil.symm), ?_⟩
    rw [State.encodeAt, hx]
    exact ⟨rfl, rfl, rfl⟩

/-- Settles O16: the state after as many calls as there are answers, waiting at the next. -/
theorem encodeStaysAtPendingCall : Obligations.EncodeStaysAtPendingCall := by
  intro s target command address data count hp hlt
  refine ⟨_, exec_encode_waits hp hlt, ?_⟩
  rw [State.encodeAt]
  generalize s.transport.answers.length = k at hlt ⊢
  interval_cases k <;> exact ⟨rfl, rfl, rfl, rfl, rfl⟩

/-- Settles O17: read off the state after some of the calls. -/
theorem encodeFrame : Obligations.EncodeFrame := by
  intro s u target command address data count h
  rcases exec_encode_cases h with rfl | ⟨xs, rest, p, b, es, ha, hes, rfl⟩
  · exact ⟨rfl, rfl, rfl, rfl, rfl, rfl, .inl rfl, .inl rfl, id, fun _ => rfl, [], by simp⟩
  · refine ⟨rfl, rfl, rfl, rfl, rfl, rfl, Latches.encodeWire_cases _ _ _, ?_, fun hf => ?_, fun hq => ?_,
      _, rfl, fun hc => ?_, fun f hc => ?_⟩
    · rcases hes with rfl | rfl
      · exact .inl s.events.append_nil
      · exact .inr rfl
    · exact Bool.or_eq_true_iff.mpr (.inl hf)
    · exact Transport.disturbAll_rxq (fun x hx => hq x (by simp [ha, hx])) _
    · simpa [Latches.encodeCalls] using List.mem_of_mem_take hc
    · simpa [Latches.encodeCalls] using List.mem_of_mem_take hc

end Sys2Proof.Machine

/-! ### READ: its first two calls, and the drain of what they found -/

namespace Sys2Proof.Machine

section
variable {s : State} {q : List Byte}

/-- What READ reports in the passes of its loop: each byte, and a time-out seen after it (R84, R85). -/
def passEvents (ps : List (Byte × Bool)) : List Event := ps.flatMap fun p => .byte p.1 :: passTimeout p.2

@[simp] theorem passEvents_nil : passEvents [] = [] := rfl

@[simp] theorem passEvents_cons (p : Byte × Bool) (ps : List (Byte × Bool)) :
    passEvents (p :: ps) = .byte p.1 :: passTimeout p.2 ++ passEvents ps := List.flatMap_cons

@[simp] theorem passEvents_append (ps ps' : List (Byte × Bool)) :
    passEvents (ps ++ ps') = passEvents ps ++ passEvents ps' := List.flatMap_append

theorem readEvents_eq (ps : List (Byte × Bool)) :
    readEvents ps = (if ps.length = 0 then [.noData] else []) ++ passEvents ps ++ [.done] := by
  cases ps <;> rfl

/-- An accepted READ (`s`) behind its first two calls: the queue counted is `q`, the flag is `tf`, and `rest` is still
listed (R82, R83). -/
def State.readCounted (s : State) (q : List Byte) (tf : Bool) (rest : List Answer) : State :=
  { s with
    phase := if q.length = 0 then .rd6 else .rd2
    inCall := false
    events := s.events ++ if q.length = 0 then [.noData] else []
    trace := s.trace ++ [.requestBytes s.latches.target s.latches.count, .bytesAvailable q.length]
    transport := { s.transport with tflag := tf, rxq := q, answers := rest } }

/-- READ at the count of what its request has brought: no data, or the loop (R83). -/
theorem runOp_rd1 {x : Answer} {xs : List Answer} (hp : s.phase = .rd1) (ha : s.transport.answers = x :: xs)
    (hq : Answer.queueAfter x s.transport.rxq = q) : runOp s = runOp
      { s with
        phase := if q.length = 0 then .rd6 else .rd2
        inCall := false
        events := s.events ++ if q.length = 0 then [.noData] else []
        trace := s.trace ++ [.bytesAvailable q.length]
        transport := { s.transport.disturb x with answers := xs } } := by
  subst hq
  by_cases hz : Answer.queueAfter x s.transport.rxq = []
  · rw [runOp_moves (.rd1z hp ha hz), hz]
    rfl
  · have hl : (Answer.queueAfter x s.transport.rxq).length ≠ 0 := by simpa using hz
    rw [runOp_moves (.rd1 hp ha hz), if_neg hl, if_neg hl, List.append_nil]
    rfl

/-- Whatever the transport does in READ's first two calls, READ goes on with the queue they leave (R82, R83). -/
theorem runOp_rd0 {x₀ x₁ : Answer} {rest : List Answer} (hp : s.phase = .rd0)
    (ha : s.transport.answers = x₀ :: x₁ :: rest)
    (hq : Answer.queueAfter x₁ (Answer.queueAfter x₀ s.transport.rxq) = q) :
    runOp s =
      runOp (s.readCounted q (s.transport.tflag || Answer.touchesFlag x₀ || Answer.touchesFlag x₁) rest) := by
  rw [runOp_moves (.rd0 hp ha), runOp_rd1 rfl rfl hq, ← hq]
  simp [State.readCounted, Transport.disturb, Answer.queueAfter]

/-- The end of READ (R81). -/
theorem runOp_rd6 (hp : s.phase = .rd6) :
    runOp s = .next { s with phase := .idle, events := s.events ++ [.done] } := by
  rw [runOp_moves (.rd6 hp), runOp_ended rfl]

/-- READ (`s`) behind a pass of its loop that read `b` and left `q`, `f` being the answer of `timeoutFlagSet`; the flag
is then `tf`, and `xs` is still listed (R84, R85, R86). -/
def State.readPassed (s : State) (b : Byte) (q : List Byte) (f tf : Bool) (xs : List Answer) : State :=
  { s with
    phase := if q.length = 0 then .rd6 else .rd2
    events := s.events ++ .byte b :: passTimeout f
    trace := s.trace ++ [.readByte b, .timeoutFlagSet f] ++ (if f then [.resetTimeoutFlag] else []) ++
      [.bytesAvailable q.length]
    transport := { s.transport with tflag := tf, rxq := q, answers := xs } }

section
variable {b : Byte} {x₀ x₁ x₂ x₃ : Answer} {xs : List Answer}

theorem runOp_read_pass_timeout (hp : s.phase = .rd2) (hc : s.inCall = false) (hq : s.transport.rxq = b :: q)
    (ha : s.transport.answers = x₀ :: x₁ :: x₂ :: x₃ :: xs) (hk : s.transport.keepsQueue)
    (hf : (s.transport.tflag || Answer.touchesFlag x₀ || x₁.setsFlag) = true) :
    runOp s = runOp (s.readPassed b q true (x₂.setsFlagAfter || Answer.touchesFlag x₃) xs) := by
  simp only [Transport.keepsQueue, ha, List.forall_mem_cons] at hk
  obtain ⟨h₀, h₁, h₂, h₃, -⟩ := hk
  simpa [runOp, ha, State.readPassed, passTimeout] using
    read_pass_timeout hp hc hq ha h₀ h₁ h₂ h₃ hf (xs.length + 4)

theorem runOp_read_pass_quiet (hp : s.phase = .rd2) (hc : s.inCall = false) (hq : s.transport.rxq = b :: q)
    (ha : s.transport.answers = x₀ :: x₁ :: x₂ :: xs) (hk : s.transport.keepsQueue)
    (hf : (s.transport.tflag || Answer.touchesFlag x₀ || x₁.setsFlag) = false) :
    runOp s = runOp (s.readPassed b q false (x₁.setsFlagAfter || Answer.touchesFlag x₂) xs) := by
  simp only [Transport.keepsQueue, ha, List.forall_mem_cons] at hk
  obtain ⟨h₀, h₁, h₂, -⟩ := hk
  simpa [runOp, ha, State.readPassed, passTimeout] using
    read_pass_quiet hp hc hq ha h₀ h₁ h₂ hf (xs.length + 4)

end

/-- READ (`s`) ended, its queue drained as `d` says (R85, R86). -/
def State.readDrained (s : State) (d : Drain) : State :=
  { s with
    phase := .idle
    events := s.events ++ passEvents (s.transport.rxq.zip d.flags) ++ [.done]
    trace := s.trace ++ passTrace (s.transport.rxq.zip d.flags)
    transport := { s.transport with tflag := d.tflag, rxq := [], answers := d.rest } }

/-- Under TA2 and with enough answers READ drains the queue pass by pass, and ends (R84, R85, R86). -/
theorem runOp_read_drain (hp : s.phase = if q.length = 0 then .rd6 else .rd2) (hc : s.inCall = false)
    (hq : s.transport.rxq = q) (hk : s.transport.keepsQueue) (hn : 4 * q.length ≤ s.transport.answers.length) :
    runOp s = .next (s.readDrained (drain q.length s.transport.tflag s.transport.answers)) := by
  induction q generalizing s with
  | nil =>
    have ht : { s.transport with rxq := [] } = s.transport := by rw [← hq]
    rw [runOp_rd6 hp]
    simp [State.readDrained, drain, hq, passTrace, ht]
  | cons b q ih =>
    match ha : s.transport.answers, hn with
    | x₀ :: x₁ :: x₂ :: x₃ :: xs, hn =>
      have hn' : 4 * q.length ≤ xs.length := by simp only [List.length_cons] at hn; omega
      have hk' : ∀ x ∈ x₃ :: xs, Answer.keepsQueue x := fun x hx => hk x (by simp [ha, List.mem_cons.mp hx])
      cases hf : s.transport.tflag || Answer.touchesFlag x₀ || x₁.setsFlag with
      | true =>
        have hl := drain_flags_length q.length (x₂.setsFlagAfter || Answer.touchesFlag x₃) xs hn'
        rw [runOp_read_pass_timeout hp hc hq ha hk hf,
          ih (s := s.readPassed b q true _ xs) rfl hc rfl (List.forall_mem_cons.mp hk').2 hn']
        simp [State.readDrained, State.readPassed, drain, hf, hq, passTrace, hl]
      | false =>
        have hl := drain_flags_length q.length (x₁.setsFlagAfter || Answer.touchesFlag x₂) (x₃ :: xs)
          (hn'.trans (Nat.le_succ _))
        rw [runOp_read_pass_quiet hp hc hq ha hk hf,
          ih (s := s.readPassed b q false _ (x₃ :: xs)) rfl hc rfl hk' (hn'.trans (Nat.le_succ _))]
        simp [State.readDrained, State.readPassed, drain, hf, hq, passTrace, hl]

/-- The whole of READ under TA2 and enough answers: what `ReadCompletes` says of it. -/
theorem exec_read_drains {x₀ x₁ : Answer} {rest : List Answer} (hp : s.phase = .idle)
    (ha : s.transport.answers = x₀ :: x₁ :: rest) (hk : ∀ x ∈ x₁ :: rest, Answer.keepsQueue x)
    (hq : Answer.queueAfter x₀ s.transport.rxq = q) (hn : 4 * q.length ≤ rest.length)
    (target command address data count : Byte) :
    exec (.read target command address data count) s = .next
      (((s.start (.read target command address data count)).readCounted q
        (s.transport.tflag || Answer.touchesFlag x₀ || Answer.touchesFlag x₁) rest).readDrained
          (drain q.length (s.transport.tflag || Answer.touchesFlag x₀ || Answer.touchesFlag x₁) rest)) := by
  obtain ⟨hx, hk⟩ := List.forall_mem_cons.mp hk
  have hq' : Answer.queueAfter x₁ (Answer.queueAfter x₀ s.transport.rxq) = q := by
    rw [← hq]
    exact congrArg (Option.getD · _) hx
  rw [exec_idle hp, runOp_rd0 (s := s.start (.read target command address data count)) rfl ha hq']
  exact runOp_read_drain rfl rfl rfl hk hn

end

/-- Settles O18: behind the two calls READ stands at its end, with `NoData` reported. -/
theorem readNoDataCompletes : Obligations.ReadNoDataCompletes := by
  intro s target command address data count x₀ x₁ rest hp ha hq
  rw [exec_idle hp, runOp_rd0 (s := s.start (.read target command address data count)) rfl ha hq, runOp_rd6 rfl]
  simp [State.readCounted, State.start, Instr.latches, opRead]

/-- Settles O19: the first two calls, and then the drain of the queue they leave. -/
theorem readCompletes : Obligations.ReadCompletes := by
  intro s target command address data count x₀ x₁ rest q hp ha hk hq hn
  have hl := drain_flags_length _ (s.transport.tflag || Answer.touchesFlag x₀ || Answer.touchesFlag x₁) _ hn
  rw [exec_read_drains hp ha hk hq.symm hn]
  generalize drain q.length _ rest = d at hl ⊢
  have hps : (q.zip d.flags).length = q.length := by simp [hl]
  simp only [readEvents_eq, readTrace, hps]
  simp [State.readDrained, State.readCounted, State.start, Instr.latches, opRead]

/-- R90's count of the calls: two, three for each pass, and one for each flag seen set. -/
theorem readTrace_length (target count : Byte) {q : List Byte} {fs : List Bool} (h : fs.length = q.length) :
    (readTrace target count (q.zip fs)).length = 2 + 3 * q.length + fs.count true := by
  suffices hp : (passTrace (q.zip fs)).length = 3 * q.length + fs.count true by
    simp [readTrace, hp]; omega
  induction fs generalizing q with
  | nil => obtain rfl := List.length_eq_zero_iff.mp h.symm; rfl
  | cons f fs ih =>
    match q, h with
    | b :: q, h =>
      have := ih (Nat.succ.inj h)
      cases f <;> simp [passTrace, this] <;> omega

/-- More answers after the ones a run has ended with stay unused. -/
theorem runOp_ended_withMoreAnswers {s u : State} (ys : List Answer) (hu : u.phase = .idle) : runOp s = .next u →
    runOp (s.withAnswers (s.transport.answers ++ ys)) = .next (u.withAnswers (u.transport.answers ++ ys)) := by
  induction s using run_induction with
  | ended s hp => intro h; rw [runOp_ended hp] at h; cases h; exact runOp_ended hp
  | waits s hc ha => intro h; rw [runOp_waits hc ha] at h; cases h; exact absurd hu (running_of_makesCall hc)
  | stops s f hb hl => intro h; rw [runOp_stops hb hl] at h; cases h
  | moves s t hm ih =>
    intro h
    rw [runOp_moves (hm.withMoreAnswers ys)]
    exact ih (runOp_moves hm ▸ h)

/-- An operation that ends does the same with more answers listed than it takes. -/
theorem exec_ended_withMoreAnswers {s u : State} {i : Instr} (ys : List Answer) (hp : s.phase = .idle)
    (hu : u.phase = .idle) (h : exec i s = .next u) :
    exec i (s.withAnswers (s.transport.answers ++ ys)) = .next (u.withAnswers (u.transport.answers ++ ys)) := by
  rw [exec_idle hp] at h
  exact (exec_idle (s := s.withAnswers (s.transport.answers ++ ys)) hp i).trans (runOp_ended_withMoreAnswers ys hu h)

/-- A READ that ends has drained the queue: with more answers than it takes it is the READ of `ReadCompletes`. -/
theorem exec_read_ended_trace {s u : State} {target command address data count : Byte} {x₀ : Answer}
    {rest : List Answer} {q : List Byte} (hp : s.phase = .idle) (ha : s.transport.answers = x₀ :: rest)
    (hk : ∀ x ∈ rest, Answer.keepsQueue x) (hq : q = Answer.queueAfter x₀ s.transport.rxq)
    (h : exec (.read target command address data count) s = .next u) (hu : u.phase = .idle) :
    ∃ fs : List Bool, fs.length = q.length ∧ u.trace = s.trace ++ readTrace target count (q.zip fs) := by
  obtain ⟨pad, hlen, hpad⟩ : ∃ pad : List Answer, pad.length = 4 * q.length + 1 ∧ ∀ x ∈ pad, Answer.keepsQueue x :=
    ⟨.replicate _ ⟨false, false, none⟩, List.length_replicate, fun x hx => by rw [List.eq_of_mem_replicate hx]; rfl⟩
  obtain ⟨x₁, xs, hxs⟩ := List.exists_cons_of_length_pos (l := rest ++ pad) (by simp [hlen])
  have hn : 4 * q.length ≤ xs.length := by
    have := congrArg List.length hxs
    simp only [List.length_append, List.length_cons] at this
    omega
  have hall : ∀ x ∈ x₁ :: xs, Answer.keepsQueue x := by
    rw [← hxs]
    exact List.forall_mem_append.mpr ⟨hk, hpad⟩
  have hm := exec_ended_withMoreAnswers pad hp hu h
  rw [ha, List.cons_append, hxs,
    readCompletes (s.withAnswers (x₀ :: x₁ :: xs)) target command address data count x₀ x₁ xs q hp rfl hall hq hn] at hm
  exact ⟨_, drain_flags_length _ _ _ hn, (congrArg State.trace (Host.Outcome.next.inj hm)).symm⟩

/-- Settles O20: the trace is that of `ReadCompletes`; the worked example is one pass with the flag clear. -/
theorem readTraceLaw : Obligations.ReadTraceLaw := by
  refine ⟨fun s u target command address data count x₀ rest q hp ha hk hq h hu => ?_,
    fun s x hp hx hf ha => ⟨by decide, ?_⟩⟩
  · obtain ⟨fs, hl, ht⟩ := exec_read_ended_trace hp ha hk hq h hu
    exact ⟨fs, hl, ht, readTrace_length target count hl⟩
  · subst hx
    rw [exec_idle hp, runOp_rd0 (s := s.start _) (q := [0x5A]) rfl ha rfl,
      runOp_read_pass_quiet (x₀ := ⟨false, false, none⟩) (x₁ := ⟨false, false, none⟩) rfl rfl rfl rfl
        (by simp [Transport.keepsQueue, State.readCounted, Answer.keepsQueue])
        (by simp [State.readCounted, State.start, hf, Answer.touchesFlag]),
      runOp_rd6 rfl]
    refine ⟨_, rfl, ?_, _, ?_, rfl, rfl⟩ <;>
      simp [State.readPassed, State.readCounted, State.start, Instr.latches, passTimeout]

/-- Where the transport sets the flag in no call, a drain that finds it clear never sees it set (R85). -/
theorem drain_of_quiet {k : Nat} {xs : List Answer} (hf : ∀ x ∈ xs, Answer.touchesFlag x = false)
    (hn : 4 * k ≤ xs.length) : ∃ ys, drain k false xs = ⟨List.replicate k false, false, ys⟩ := by
  induction k generalizing xs with
  | zero => exact ⟨xs, rfl⟩
  | succ k ih =>
    match xs, hn with
    | x₀ :: x₁ :: x₂ :: x₃ :: xs, hn =>
      simp only [Answer.touchesFlag, Bool.or_eq_false_iff, List.forall_mem_cons] at hf
      obtain ⟨⟨hs₀, ha₀⟩, ⟨hs₁, ha₁⟩, ⟨hs₂, ha₂⟩, hf⟩ := hf
      obtain ⟨ys, hd⟩ := ih (xs := x₃ :: xs) (by simpa [Answer.touchesFlag] using hf) (by simp at hn ⊢; omega)
      exact ⟨ys, by simp [drain, Answer.touchesFlag, *, List.replicate_succ]⟩

/-- Where the transport sets the flag in no call, a drain that finds it set sees it set after the first byte and not
again (R85, R88). -/
theorem drain_of_stale {k : Nat} {xs : List Answer} (hf : ∀ x ∈ xs, Answer.touchesFlag x = false)
    (hn : 4 * (k + 1) ≤ xs.length) : ∃ ys, drain (k + 1) true xs = ⟨true :: List.replicate k false, false, ys⟩ := by
  match xs, hn with
  | x₀ :: x₁ :: x₂ :: x₃ :: xs, hn =>
    simp only [List.forall_mem_cons] at hf
    obtain ⟨-, -, hf₂, hf₃, hf⟩ := hf
    obtain ⟨-, hs₂⟩ := Bool.or_eq_false_iff.mp hf₂
    obtain ⟨ys, hd⟩ := drain_of_quiet hf (k := k) (by simp only [List.length_cons] at hn; omega)
    exact ⟨ys, by simp [drain, hs₂, hf₃, hd]⟩

theorem passEvents_zip_replicate_false (q : List Byte) :
    passEvents (q.zip (List.replicate q.length false)) = q.map .byte := by
  induction q with
  | nil => rfl
  | cons b q ih => simp [List.replicate_succ, ih, passTimeout]

/-- Settles O24: the first pass sees and resets the flag, and no other does. -/
theorem staleTimeoutReportedAfterFirstByte : Obligations.StaleTimeoutReportedAfterFirstByte := by
  intro s target command address data count x₀ rest b q hp ht ha hf hk hq hn
  obtain ⟨x₁, rest, rfl⟩ := List.exists_cons_of_length_pos (l := rest) (by omega)
  simp only [List.forall_mem_cons] at hf
  obtain ⟨hf₀, hf₁, hf⟩ := hf
  have hn' : 4 * (q.length + 1) ≤ rest.length := by simp only [List.length_cons] at hn; omega
  obtain ⟨ys, hd⟩ := drain_of_stale hf hn'
  have hr := readCompletes s target command address data count x₀ x₁ rest (b :: q) hp ha hk hq.symm hn'
  rw [ht, hf₀, hf₁, List.length_cons, Bool.or_false, Bool.or_false, hd] at hr
  refine ⟨_, hr, rfl, ?_, rfl⟩
  simp [readEvents_eq, passEvents_zip_replicate_false, passTimeout]

end Sys2Proof.Machine

/-! ### READ, whatever the transport does: its passes, and what it leaves unchanged -/

namespace Sys2Proof.Machine

section
variable {s t u : State}

/-- What every line of READ keeps, and a line that waits, a run of READ keeps. -/
theorem runOp_read_keeps {P : State → Prop} (hmoves : ∀ s t, P s → s.phase.inRead = true → Moves s t → P t)
    (hwaits : ∀ s, P s → P s.waiting) (hs : P s) (hp : s.phase.inRead = true) (h : runOp s = .next u) : P u :=
  (runOp_keeps (P := fun t => P t ∧ (t.phase ≠ .idle → t.phase.inRead = true))
    (fun s t ⟨hs, hr⟩ hm => ⟨hmoves s t hs (hr hm.running) hm, hm.read_or_ended (hr hm.running)⟩)
    (fun s ⟨hs, hr⟩ _ => ⟨hwaits s hs, hr⟩) ⟨hs, fun _ => hp⟩ h).1

/-- `u` has the slots of `s`, and the transport's part that a READ does not reach. -/
structure State.sameBus (s u : State) : Prop where
  slots : u.slots = s.slots
  idx : u.idx = s.idx
  draws : u.transport.draws = s.transport.draws
  openTx : u.transport.openTx = s.transport.openTx
  wire : u.transport.wire = s.transport.wire

/-- No line of READ stores a byte, writes to the bus or draws an answer (R81). -/
theorem Moves.sameBus (h : Moves s u) (hs : s.phase.inRead = true) : s.sameBus u := by
  cases h
  case rd0 | rd1 | rd1z | rd2 | rd3 | rd4 | rd5 | rd6 => exact ⟨rfl, rfl, rfl, rfl, rfl⟩
  all_goals simp [*, Phase.inRead] at hs

theorem State.sameBus.trans (h : s.sameBus t) (h' : t.sameBus u) : s.sameBus u := by
  constructor
  · rw [h'.slots, h.slots]
  · rw [h'.idx, h.idx]
  · rw [h'.draws, h.draws]
  · rw [h'.openTx, h.openTx]
  · rw [h'.wire, h.wire]

theorem runOp_sameBus (hs : s.phase.inRead = true) (h : runOp s = .next u) : s.sameBus u :=
  runOp_read_keeps (P := s.sameBus) (fun _ _ ht hr hm => ht.trans (hm.sameBus hr))
    (fun _ ⟨h₁, h₂, h₃, h₄, h₅⟩ => ⟨h₁, h₂, h₃, h₄, h₅⟩) ⟨rfl, rfl, rfl, rfl, rfl⟩ hs h

/-- The answers of the calls `cs` that asked for the flag, in order. -/
def flagAnswers (cs : List Call) : List Bool := cs.filterMap Call.flagAnswer

@[simp] theorem flagAnswers_nil : flagAnswers [] = [] := rfl

@[simp] theorem flagAnswers_cons (c : Call) (cs : List Call) :
    flagAnswers (c :: cs) = c.flagAnswer.toList ++ flagAnswers cs := by
  cases h : c.flagAnswer <;> simp [flagAnswers, h]

@[simp] theorem flagAnswers_append (cs cs' : List Call) :
    flagAnswers (cs ++ cs') = flagAnswers cs ++ flagAnswers cs' := List.filterMap_append

/-- How far a READ at a label has come: `ps` are the passes in which the flag has been asked, `bs` the bytes read and
`es` the events emitted by then (R81). At RD4 a time-out seen is emitted when the call is made (`inCall`). -/
def readProgress (ps : List (Byte × Bool)) (inCall : Bool) (bs : List Byte) (es : List Event) : Phase → Prop
  | .rd0 | .rd1 => ps = [] ∧ bs = [] ∧ es = []
  | .rd2 => bs = ps.map Prod.fst ∧ es = passEvents ps
  | .rd3 => ∃ b, bs = ps.map Prod.fst ++ [b] ∧ es = passEvents ps ++ [.byte b]
  | .rd4 => ps ≠ [] ∧ bs = ps.map Prod.fst ∧ es ++ (if inCall then [] else [.timedOut]) = passEvents ps
  | .rd5 => ps ≠ [] ∧ bs = ps.map Prod.fst ∧ es = passEvents ps
  | .rd6 => bs = ps.map Prod.fst ∧ es ++ [.done] = readEvents ps
  | .idle => bs = ps.map Prod.fst ∧ es = readEvents ps
  | _ => False

/-- A READ begun in `s` has come to `u`. -/
def State.readsTo (s u : State) : Prop :=
  ∃ ps cs es, u.trace = s.trace ++ cs ∧ u.events = s.events ++ es ∧ flagAnswers cs = ps.map Prod.snd ∧
    readProgress ps u.inCall (bytesRead cs) es u.phase

/-- A READ that has come to `t` has come to `u` with one more call `c`, which did not ask for the flag, and the events
`es'`. -/
theorem readsTo_of_call {ps : List (Byte × Bool)} {cs : List Call} {es : List Event} (hc : t.trace = s.trace ++ cs)
    (he : t.events = s.events ++ es) (hf : flagAnswers cs = ps.map Prod.snd) (c : Call) (es' : List Event)
    (hc' : u.trace = t.trace ++ [c]) (he' : u.events = t.events ++ es') (hf' : c.flagAnswer = none)
    (hr : readProgress ps u.inCall (bytesRead cs ++ c.byteRead.toList) (es ++ es') u.phase) : s.readsTo u :=
  ⟨ps, cs ++ [c], es ++ es', by simp [hc', hc], by simp [he', he], by simp [hf', hf], by simpa using hr⟩

/-- Each line of READ carries the READ one label further (R82 to R86). -/
theorem Moves.readsTo (h : Moves t u) (ht : s.readsTo t) : s.readsTo u := by
  obtain ⟨ps, cs, es, hc, he, hf, hr⟩ := ht
  cases h
  case rd0 hp _ =>
    simp only [readProgress, hp] at hr
    exact readsTo_of_call hc he hf _ [] rfl (by simp) rfl (by simpa [readProgress, Call.byteRead] using hr)
  case rd1z hp _ _ =>
    simp only [readProgress, hp] at hr
    obtain ⟨rfl, hb, rfl⟩ := hr
    exact readsTo_of_call hc he hf _ [_] rfl rfl rfl (by simp [readProgress, hb, Call.byteRead, readEvents])
  case rd1 hp _ _ =>
    simp only [readProgress, hp] at hr
    obtain ⟨rfl, hb, rfl⟩ := hr
    exact readsTo_of_call hc he hf _ [] rfl (by simp) rfl (by simp [readProgress, hb, Call.byteRead])
  case rd2 b _ hp _ _ =>
    simp only [readProgress, hp] at hr
    obtain ⟨hb, rfl⟩ := hr
    exact readsTo_of_call hc he hf _ [_] rfl rfl rfl ⟨b, by simp [hb, Call.byteRead], rfl⟩
  case rd3 x _ hp _ =>
    simp only [readProgress, hp] at hr
    obtain ⟨b, hb, rfl⟩ := hr
    refine ⟨ps ++ [(b, t.transport.tflag || x.setsFlag)], cs ++ [.timeoutFlagSet (t.transport.tflag || x.setsFlag)],
      passEvents ps ++ [.byte b], by simp [hc], he, by simp [hf, Call.flagAnswer], ?_⟩
    cases t.transport.tflag || x.setsFlag <;> simp [readProgress, hb, Call.byteRead, passTimeout]
  case rd4 hp _ =>
    simp only [readProgress, hp] at hr
    exact readsTo_of_call hc he hf _ _ rfl rfl rfl (by simpa [readProgress, Call.byteRead] using hr)
  case rd5 hp _ =>
    simp only [readProgress, hp] at hr
    obtain ⟨hps, hb, rfl⟩ := hr
    refine readsTo_of_call hc he hf _ [] rfl (by simp) rfl ?_
    dsimp only
    split <;> simp [readProgress, hb, Call.byteRead, readEvents_eq, hps]
  case rd6 hp =>
    simp only [readProgress, hp] at hr
    obtain ⟨hb, hes⟩ := hr
    exact ⟨ps, cs, es ++ [.done], hc, by simp [he], hf, hb, hes⟩
  all_goals simp [*, readProgress] at hr

theorem waiting_readsTo (hc : t.phase.makesCall = true) (ht : s.readsTo t) : s.readsTo t.waiting := by
  obtain ⟨ps, cs, es, hc, he, hf, hr⟩ := ht
  refine ⟨ps, cs, es ++ if t.inCall then [] else t.phase.before, hc, by simp [State.waiting, he], hf, ?_⟩
  cases hp : t.phase <;> simp_all [readProgress, State.waiting, Phase.before, Phase.makesCall]

theorem runOp_readsTo (hs : s.readsTo t) (h : runOp t = .next u) : s.readsTo u :=
  runOp_keeps (P := s.readsTo) (fun _ _ ht hm => hm.readsTo ht) (fun _ ht hc => waiting_readsTo hc ht) hs h

end

/-- Settles O21: a READ that has come to its end has the events of its passes. -/
theorem readEventShape : Obligations.ReadEventShape := by
  intro s u target command address data count hp h hu
  rw [exec_idle hp] at h
  have hstart : s.readsTo (s.start (.read target command address data count)) :=
    ⟨[], [], [], by simp [State.start], by simp [State.start], rfl, rfl, rfl, rfl⟩
  obtain ⟨ps, cs, es, hc, he, hf, hr⟩ := runOp_readsTo hstart h
  rw [hu] at hr
  obtain ⟨hb, rfl⟩ := hr
  exact ⟨ps, cs, he, hc, hb, hf⟩

/-- Settles O22: no line of READ changes any of these, nor does a READ that is not accepted. -/
theorem readFrame : Obligations.ReadFrame := by
  intro s u target command address data count h
  by_cases hp : s.phase = .idle
  · rw [exec_idle hp] at h
    obtain ⟨-, hreq, hreset, hdispatcher⟩ := runOp_sameOutside h
    obtain ⟨hslots, hidx, hdraws, hopen, hwire⟩ := runOp_sameBus rfl h
    exact ⟨hslots, hidx, hreq, hreset, hdispatcher, hdraws, hopen, hwire⟩
  · rw [exec_busy hp] at h
    cases h
    exact ⟨rfl, rfl, rfl, rfl, rfl, rfl, rfl, rfl⟩

end Sys2Proof.Machine

/-! ### A time-out observed once -/

namespace Sys2Proof.Machine

section
variable {s t u w : State}

theorem addsNoTimeout_refl (s : State) : s.addsNoTimeout s := ⟨[], by simp, by simp⟩

theorem State.addsNoTimeout.trans (h : s.addsNoTimeout t) (h' : t.addsNoTimeout u) : s.addsNoTimeout u := by
  obtain ⟨es, he, hn⟩ := h
  obtain ⟨es', he', hn'⟩ := h'
  exact ⟨es ++ es', by simp [he', he], by simp [hn, hn']⟩

/-- The flag is quiet, and the block does not stand at a line that reports a time-out already seen. -/
structure State.quiet (s : State) : Prop where
  flag : s.transport.flagQuiet
  noReport : s.phase ≠ .rd4 ∧ s.phase ≠ .id5

/-- With a quiet flag the next answer does not set it, and leaves it quiet. -/
theorem Transport.flagQuiet.of_cons {t : Transport} (h : t.flagQuiet) {x : Answer} {xs : List Answer}
    (ha : t.answers = x :: xs) :
    (t.tflag || x.setsFlag) = false ∧ (t.tflag || Answer.touchesFlag x) = false ∧
      ∀ y ∈ xs, Answer.touchesFlag y = false := by
  obtain ⟨hf, hq⟩ := h
  rw [ha, List.forall_mem_cons] at hq
  obtain ⟨hx, hxs⟩ := hq
  obtain ⟨hs, -⟩ := Bool.or_eq_false_iff.mp hx
  exact ⟨by simp [hf, hs], by simp [hf, hx], hxs⟩

/-- A line that finds a quiet flag reports no time-out and leaves a quiet flag (R85, R103). -/
theorem Moves.quiet (h : Moves s u) (hs : s.quiet) : s.addsNoTimeout u ∧ u.quiet := by
  obtain ⟨hq, hrd4, hid5⟩ := hs
  cases h
  case rd4 hp _ => exact absurd hp hrd4
  case id5 hp _ => exact absurd hp hid5
  case en5 | rd6 | id8 => exact ⟨⟨[.done], rfl, by simp⟩, hq, by simp⟩
  case id7 => exact ⟨⟨[_], rfl, by simp [Slots.identEvent]⟩, hq, by simp⟩
  case id0 => exact ⟨⟨[], by simp, by simp⟩, hq, by simp⟩
  case rd3 ha | id4 ha =>
    obtain ⟨hseen, hquiet⟩ := hq.of_cons ha
    exact ⟨⟨[], by simp, by simp⟩, hquiet, by simp [hseen]⟩
  case rd5 ha | id6 ha =>
    obtain ⟨-, hquiet⟩ := hq.of_cons ha
    exact ⟨⟨[], by simp, by simp⟩, hquiet, by dsimp only; split <;> simp⟩
  case rd1z ha _ | id2z ha _ | rd2 ha _ =>
    obtain ⟨-, hquiet⟩ := hq.of_cons ha
    exact ⟨⟨[_], rfl, by simp⟩, hquiet, by simp⟩
  all_goals
    obtain ⟨-, hquiet⟩ := hq.of_cons (by assumption)
    exact ⟨⟨[], by simp, by simp⟩, hquiet, by simp⟩

theorem waiting_quiet (hs : s.quiet) : s.addsNoTimeout s.waiting ∧ s.waiting.quiet := by
  obtain ⟨hq, hrd4, hid5⟩ := hs
  refine ⟨⟨[], ?_, by simp⟩, hq, hrd4, hid5⟩
  have hb : s.phase.before = [] := by
    unfold Phase.before
    split <;> simp_all
  simp [State.waiting, hb]

theorem runOp_quiet (hs : s.quiet) (h : runOp s = .next u) : s.addsNoTimeout u ∧ u.transport.flagQuiet := by
  have hu := runOp_keeps (P := fun t => s.addsNoTimeout t ∧ t.quiet)
    (fun t v ⟨ht, hq⟩ hm => (hm.quiet hq).imp_left ht.trans)
    (fun t ⟨ht, hq⟩ _ => (waiting_quiet hq).imp_left ht.trans) ⟨addsNoTimeout_refl s, hs⟩ h
  exact hu.imp_right State.quiet.flag

theorem start_quiet (hq : s.transport.flagQuiet) (i : Instr) : (s.start i).quiet :=
  ⟨hq, by cases i <;> simp [State.start, Instr.first]⟩

/-- Between `s` and `u` the last call has been `T.resetTimeoutFlag()`: `u` stands at the label behind it, and the flag
is as the call's answer has left it. -/
def State.justReset (s u : State) : Prop :=
  (u.phase = .rd5 ∨ u.phase = .id6) ∧
    ∃ xs x, s.transport.answers = xs ++ [x] ++ u.transport.answers ∧ u.transport.tflag = x.setsFlagAfter

/-- Of the calls of a run the last tells where it stands, where that is `T.resetTimeoutFlag()`. -/
def State.resetTold (s u : State) : Prop :=
  ∀ cs, u.trace = s.trace ++ cs ++ [.resetTimeoutFlag] → s.justReset u

theorem Moves.resetTold (h : Moves t u) (ha : s.answered t) (ht : s.resetTold t) : s.resetTold u := by
  intro cs hc
  cases h
  case rd4 x _ hp hx | id5 x _ hp hx =>
    obtain ⟨xs, -, hxs, -⟩ := ha
    exact ⟨by simp, xs, x, by simp [hxs, hx], rfl⟩
  case en5 hp | rd6 hp | id0 hp | id7 hp | id8 hp => obtain ⟨hp', -⟩ := ht cs hc; simp [hp] at hp'
  all_goals exact absurd (List.append_inj_right' hc rfl) (by simp)

theorem runOp_resetTold (h : runOp s = .next u) : s.resetTold u := by
  have hu := runOp_keeps (P := fun t => s.answered t ∧ s.resetTold t)
    (fun t v ⟨ha, ht⟩ hm => ⟨ha.trans hm.answered, hm.resetTold ha ht⟩) (fun _ ht _ => ht)
    ⟨answered_refl s, fun cs hc => by simp at hc⟩ h
  exact hu.2

/-- A run whose last call has been `T.resetTimeoutFlag()` waits for the next, the flag as its last answer has left it. -/
theorem runOp_reset_last {xs : List Answer} {x : Answer} {cs : List Call} (ha : s.transport.answers = xs ++ [x])
    (h : runOp s = .next w) (hc : w.trace = s.trace ++ cs ++ [.resetTimeoutFlag]) :
    (w.phase = .rd5 ∨ w.phase = .id6) ∧ w.transport.tflag = x.setsFlagAfter := by
  obtain ⟨hp, ys, y, hy, hf⟩ := runOp_resetTold h cs hc
  refine ⟨hp, ?_⟩
  have hw : w.transport.answers = [] := by
    rcases runOp_endedOrWaits h with hidle | ⟨-, -, hw⟩
    · simp [hidle] at hp
    · exact hw
  rw [hw, List.append_nil, ha] at hy
  rw [hf, List.singleton_inj.mp (List.append_inj_right' hy rfl)]

end

/-- Settles O23: behind the reset call, and wherever an operation or a step finds a quiet flag, the run is a quiet one. -/
theorem observedTimeoutIsNotReportedAgain : Obligations.ObservedTimeoutIsNotReportedAgain := by
  refine ⟨fun i s u w xs ys x cs hp ha hx hys hw hc h => ?_, fun i s u hp hq h => ?_, fun s u hs hr hq hb h => ?_⟩
  · rw [exec_idle (s := s.withAnswers (xs ++ [x])) hp] at hw
    obtain ⟨hwp, hwf⟩ := runOp_reset_last rfl hw hc
    have hwb : w.phase ≠ .idle := by rcases hwp with hwp | hwp <;> simp [hwp]
    have hquiet : (w.withAnswers ys).quiet :=
      ⟨⟨hwf.trans hx, hys⟩, by rcases hwp with hwp | hwp <;> simp [State.withAnswers, hwp]⟩
    have hsame : s.withAnswers (xs ++ [x] ++ ys) = s := by rw [← ha]; rfl
    have hrun : runOp (w.withAnswers ys) = runOp ((s.withAnswers (xs ++ [x] ++ ys)).start i) :=
      runOp_withMoreAnswers ys hw hwb
    rw [hsame, ← exec_idle hp, h] at hrun
    exact (runOp_quiet hquiet hrun :)
  · rw [exec_idle hp] at h
    exact (runOp_quiet (start_quiet hq i) h :)
  · rcases step_cases h with ⟨hreset, -, -⟩ | ⟨-, hbusy, hrun⟩ | ⟨-, -, i, hrun⟩ | ⟨-, -, rfl⟩
    · simp [hr] at hreset
    · rw [drawAnswer_of_answers (hb (State.busy_iff.mpr hbusy))] at hrun
      have hseen : ¬(s.phase = .rd4 ∨ s.phase = .id5) := fun hp => by simpa [hq.1] using hs.flagSeen hp
      exact runOp_quiet ⟨hq, not_or.mp hseen⟩ hrun
    · exact (runOp_quiet (start_quiet (s := s.setReq none) hq i) hrun :)
    · obtain ⟨r, d, hh, -⟩ := hostStep_frame Config.params s
      rw [hh]
      exact ⟨addsNoTimeout_refl s, hq⟩

end Sys2Proof.Machine

/-! ### READ_ID beside READ: one simulation, line by line -/

namespace Sys2Proof.Machine

section
variable {s s' t t' u : State}

/-- A run has another one beside it where each line that moves in the one is matched by lines of the other, or by none,
and the two end and wait together. -/
theorem runOp_simulates {R : State → State → Prop} (hended : ∀ {s t}, R s t → s.phase = .idle → t.phase = .idle)
    (hwaits : ∀ {s t}, R s t → s.phase.makesCall = true →
      t.phase.makesCall = true ∧ t.transport.answers = s.transport.answers ∧ R s.waiting t.waiting)
    (hmoves : ∀ {s s' t}, R s t → Moves s s' → ∃ t', runOp t = runOp t' ∧ R s' t') :
    R s t → runOp s = .next u → ∃ v, runOp t = .next v ∧ R u v := by
  induction s using run_induction generalizing t with
  | ended s hp =>
    intro hr h
    rw [runOp_ended hp] at h
    cases h
    exact ⟨t, runOp_ended (hended hr hp), hr⟩
  | waits s hc ha =>
    intro hr h
    rw [runOp_waits hc ha] at h
    cases h
    obtain ⟨hc', ha', hr'⟩ := hwaits hr hc
    exact ⟨t.waiting, runOp_waits hc' (ha'.trans ha), hr'⟩
  | stops s f hb hl => intro _ h; rw [runOp_stops hb hl] at h; cases h
  | moves s s' hm ih =>
    intro hr h
    obtain ⟨t', ht, hr'⟩ := hmoves hr hm
    rw [ht]
    exact ih hr' (runOp_moves hm ▸ h)

/-- An accepted READ_ID behind ID0: the slots and `IDX` are cleared (R97). -/
def State.startReadId (s : State) (target command address data count : Byte) : State :=
  { s.start (.readId target command address data count) with phase := .id1, slots := Slots.zero, idx := 0 }

theorem exec_readId_idle (hp : s.phase = .idle) (target command address data count : Byte) :
    exec (.readId target command address data count) s =
      runOp (s.startReadId target command address data count) :=
  (exec_idle hp _).trans (runOp_moves (.id0 rfl))

/-- The label of READ that treats the transport as this label of READ_ID behind ID0 does (R81, R96, R106); READ has
none for ID7, which makes no call, and stands at its end there. -/
def Phase.readLabel : Phase → Option Phase
  | .id1 => some .rd0
  | .id2 => some .rd1
  | .id3 => some .rd2
  | .id4 => some .rd3
  | .id5 => some .rd4
  | .id6 => some .rd5
  | .id7 | .id8 => some .rd6
  | .idle => some .idle
  | _ => none

/-- The event reports a byte. -/
def Event.isByte : Event → Bool
  | .byte _ => true
  | _ => false

/-- The events that report no byte (R104). -/
def withoutBytes (es : List Event) : List Event := es.filter fun e => !e.isByte

@[simp] theorem withoutBytes_nil : withoutBytes [] = [] := rfl

@[simp] theorem withoutBytes_append (es es' : List Event) :
    withoutBytes (es ++ es') = withoutBytes es ++ withoutBytes es' := List.filter_append ..

@[simp] theorem withoutBytes_cons (e : Event) (es : List Event) :
    withoutBytes (e :: es) = (if e.isByte then [] else [e]) ++ withoutBytes es := by
  cases h : e.isByte <;> simp [withoutBytes, h]

theorem byte_notMem_withoutBytes (b : Byte) (es : List Event) : Event.byte b ∉ withoutBytes es := by
  simp [withoutBytes, Event.isByte]

/-- What READ_ID reports of a reply of which READ reports `es`: no byte, and the slots where there is data (R101,
R102, R104). -/
def identReport (x : Slots) (es : List Event) : List Event :=
  withoutBytes es ++ if .noData ∈ es then [] else [x.identEvent]

/-- How the events `es'` of a READ_ID at a label, with `x` in its slots, follow the events `es` of the READ beside it:
at ID8 the one `Ident` has been reported, and an operation that has ended has reported `Done` last. -/
def eventsMirror (x : Slots) (es es' : List Event) : Phase → Prop
  | .idle => ∃ fs, es = fs ++ [.done] ∧ es' = identReport x fs ++ [.done]
  | .id8 => es' = identReport x es
  | _ => .noData ∉ es ∧ es' = withoutBytes es

theorem byte_notMem_of_eventsMirror {x : Slots} {es es' : List Event} {p : Phase} (h : eventsMirror x es es' p)
    (b : Byte) : Event.byte b ∉ es' := by
  have hi (fs : List Event) : Event.byte b ∉ identReport x fs := by
    unfold identReport
    split <;> simp [byte_notMem_withoutBytes, Slots.identEvent]
  unfold eventsMirror at h
  split at h
  · obtain ⟨fs, -, rfl⟩ := h
    simp [hi]
  · exact h ▸ hi es
  · exact h.2 ▸ byte_notMem_withoutBytes b es

/-- A READ_ID (`s`) beside a READ of four bytes (`t`), both begun where the stream held `ev`: call for call they have
done the same (R106). -/
structure State.mirrors (ev : List Event) (s t : State) : Prop where
  label : s.phase.readLabel = some t.phase
  inCall : t.inCall = s.inCall
  target : t.latches.target = s.latches.target
  count : t.latches.count = 4
  trace : t.trace = s.trace
  transport : t.transport = s.transport
  events : ∃ es es', t.events = ev ++ es ∧ s.events = ev ++ es' ∧ eventsMirror s.slots es es' s.phase

section
variable {ev : List Event}

theorem State.mirrors.label_of {p q : Phase} (hr : s.mirrors ev t) (hp : s.phase = p) (hq : p.readLabel = some q) :
    t.phase = q :=
  Option.some.inj (hr.label.symm.trans (hp ▸ hq))

/-- One line of each, `es₁` and `es₁'` being the events they add. -/
theorem State.mirrors.step {es₁ es₁' : List Event} (hr : s.mirrors ev t) (hs : Moves s s') (ht : Moves t t')
    (hl : s'.phase.readLabel = some t'.phase) (hi : t'.inCall = s'.inCall) (htr : t'.trace = s'.trace)
    (htp : t'.transport = s'.transport) (he : t'.events = t.events ++ es₁) (he' : s'.events = s.events ++ es₁')
    (hv : ∀ es es', eventsMirror s.slots es es' s.phase → eventsMirror s'.slots (es ++ es₁) (es' ++ es₁') s'.phase) :
    ∃ t', runOp t = runOp t' ∧ s'.mirrors ev t' := by
  obtain ⟨es, es', hes, hes', hm⟩ := hr.events
  exact ⟨t', runOp_moves ht, hl, hi, by rw [ht.sameOutside.latches, hs.sameOutside.latches, hr.target],
    by rw [ht.sameOutside.latches, hr.count], htr, htp,
    es ++ es₁, es' ++ es₁', by simp [he, hes], by simp [he', hes'], hv es es' hm⟩

/-- One line of each, of which neither reports anything. -/
theorem State.mirrors.step_silent (hr : s.mirrors ev t) (hs : Moves s s') (ht : Moves t t')
    (hl : s'.phase.readLabel = some t'.phase) (hi : t'.inCall = s'.inCall) (htr : t'.trace = s'.trace)
    (htp : t'.transport = s'.transport) (he : t'.events = t.events) (he' : s'.events = s.events)
    (hv : ∀ es es', eventsMirror s.slots es es' s.phase → eventsMirror s'.slots es es' s'.phase) :
    ∃ t', runOp t = runOp t' ∧ s'.mirrors ev t' :=
  hr.step (es₁ := []) (es₁' := []) hs ht hl hi htr htp (by simp [he]) (by simp [he']) (by simpa using hv)

/-- Each line of READ_ID is matched by the line of READ at the same label, but for ID7, which READ has no line for. -/
theorem State.mirrors.moves (hr : s.mirrors ev t) (h : Moves s s') : ∃ t', runOp t = runOp t' ∧ s'.mirrors ev t' := by
  have htr := hr.trace
  have htp := hr.transport
  cases h
  case id1 hp ha =>
    exact hr.step_silent (.id1 hp ha) (.rd0 (hr.label_of hp rfl) (htp ▸ ha)) rfl rfl
      (by simp [htr, hr.target, hr.count]) (by simp [htp]) rfl rfl (by simp [hp, eventsMirror])
  case id2z hp ha hz =>
    exact hr.step (.id2z hp ha hz) (.rd1z (hr.label_of hp rfl) (htp ▸ ha) (htp ▸ hz)) rfl rfl
      (by simp [htr]) (by simp [htp]) rfl rfl (by simp [hp, eventsMirror, identReport, Event.isByte])
  case id2 hp ha hz =>
    exact hr.step_silent (.id2 hp ha hz) (.rd1 (hr.label_of hp rfl) (htp ▸ ha) (htp ▸ hz)) rfl rfl
      (by simp [htr, htp]) (by simp [htp]) rfl rfl (by simp [hp, eventsMirror])
  case id3 hp ha hq =>
    exact hr.step (es₁' := []) (.id3 hp ha hq) (.rd2 (hr.label_of hp rfl) (htp ▸ ha) (htp ▸ hq)) rfl rfl
      (by simp [htr]) (by simp [htp]) rfl (by simp) (by simp [hp, eventsMirror, Event.isByte])
  case id4 hp ha =>
    exact hr.step_silent (.id4 hp ha) (.rd3 (hr.label_of hp rfl) (htp ▸ ha)) (by simp only [htp]; split <;> rfl) rfl
      (by simp [htr, htp]) (by simp [htp]) rfl rfl (by dsimp only; split <;> simp [hp, eventsMirror])
  case id5 hp ha =>
    exact hr.step (.id5 hp ha) (.rd4 (hr.label_of hp rfl) (htp ▸ ha)) rfl rfl
      (by simp [htr]) (by simp [htp]) rfl rfl
      (by rw [hr.inCall]; cases s.inCall <;> simp [hp, eventsMirror, Event.isByte])
  case id6 hp ha =>
    exact hr.step_silent (.id6 hp ha) (.rd5 (hr.label_of hp rfl) (htp ▸ ha)) (by simp only [htp]; split <;> rfl) rfl
      (by simp [htr, htp]) (by simp [htp]) rfl rfl (by dsimp only; split <;> simp [hp, eventsMirror])
  case id7 hp =>
    obtain ⟨es, es', he, he', hv⟩ := hr.events
    simp only [hp, eventsMirror] at hv
    obtain ⟨hn, rfl⟩ := hv
    exact ⟨t, rfl, by simp [hr.label_of hp rfl, Phase.readLabel], hr.inCall, hr.target, hr.count, htr, htp,
      es, withoutBytes es ++ [s.slots.identEvent], he, by simp [he'], by simp [eventsMirror, identReport, hn]⟩
  case id8 hp =>
    exact hr.step (.id8 hp) (.rd6 (hr.label_of hp rfl)) rfl hr.inCall htr htp rfl rfl (by simp [hp, eventsMirror])
  all_goals
    have hl := hr.label
    simp [*, Phase.readLabel] at hl

/-- At a call the two labels make their calls alike, and a time-out seen is all they emit before it. -/
theorem Phase.readLabel_makesCall {p q : Phase} (h : p.readLabel = some q) (hc : p.makesCall = true) :
    q.makesCall = true ∧ q.before = p.before ∧ .noData ∉ p.before ∧ withoutBytes p.before = p.before := by
  cases p
  case id1 | id2 | id3 | id4 | id5 | id6 => cases h; decide
  all_goals simp [Phase.readLabel, Phase.makesCall] at h hc

theorem eventsMirror_makesCall {x : Slots} {es es' : List Event} {p : Phase} (hc : p.makesCall = true) :
    eventsMirror x es es' p ↔ .noData ∉ es ∧ es' = withoutBytes es := by
  cases p
  case idle | id8 => simp [Phase.makesCall] at hc
  all_goals rfl

/-- The two wait together. -/
theorem State.mirrors.waiting (hr : s.mirrors ev t) (hc : s.phase.makesCall = true) :
    t.phase.makesCall = true ∧ t.transport.answers = s.transport.answers ∧ s.waiting.mirrors ev t.waiting := by
  obtain ⟨hc', hb, hn, hw⟩ := Phase.readLabel_makesCall hr.label hc
  obtain ⟨es, es', he, he', hv⟩ := hr.events
  rw [eventsMirror_makesCall hc] at hv
  obtain ⟨hd, rfl⟩ := hv
  refine ⟨hc', by rw [hr.transport], hr.label, rfl, hr.target, hr.count, hr.trace, hr.transport,
    es ++ (if s.inCall then [] else s.phase.before), withoutBytes es ++ (if s.inCall then [] else s.phase.before),
    by simp [State.waiting, he, hr.inCall, hb], by simp [State.waiting, he'], (eventsMirror_makesCall hc).mpr ?_⟩
  split <;> simp [hd, hn, hw]

/-- READ_ID and READ of four bytes, from one idle state, do the same call for call, whatever the transport does
(R106). -/
theorem exec_readId_mirrors (hp : s.phase = .idle) (target c₁ a₁ d₁ c₂ a₂ d₂ n : Byte) :
    ∃ u v, exec (.read target c₁ a₁ d₁ 4) s = .next u ∧ exec (.readId target c₂ a₂ d₂ n) s = .next v ∧
      v.mirrors s.events u := by
  have hstart : (s.startReadId target c₂ a₂ d₂ n).mirrors s.events (s.start (.read target c₁ a₁ d₁ 4)) :=
    ⟨rfl, rfl, rfl, rfl, rfl, rfl, [], [], (List.append_nil _).symm, (List.append_nil _).symm, by
      simp [State.startReadId, eventsMirror]⟩
  obtain ⟨v, hv⟩ := runOp_of_callsReady (start_callsReady s (.readId target c₂ a₂ d₂ n))
  rw [← exec_idle hp] at hv
  obtain ⟨u, hu, hm⟩ := runOp_simulates (R := State.mirrors s.events) (fun hr hp => hr.label_of hp rfl)
    State.mirrors.waiting State.mirrors.moves hstart ((exec_readId_idle hp ..).symm.trans hv)
  exact ⟨u, v, (exec_idle hp _).trans hu, hv, hm⟩

theorem Phase.readLabel_idle_iff {p q : Phase} (h : p.readLabel = some q) : p = .idle ↔ q = .idle := by
  cases p
  case idle | id1 | id2 | id3 | id4 | id5 | id6 | id7 | id8 => cases h; decide
  all_goals simp [Phase.readLabel] at h

end
end

/-- Settles O28: the two are one run of calls, label for label. -/
theorem readIdTraceIsReadTrace : Obligations.ReadIdTraceIsReadTrace := by
  intro s target c₁ a₁ d₁ c₂ a₂ d₂ n hp
  obtain ⟨u, v, hu, hv, hm⟩ := exec_readId_mirrors hp target c₁ a₁ d₁ c₂ a₂ d₂ n
  exact ⟨u, v, hu, hv, hm.trace.symm, hm.transport.symm, Phase.readLabel_idle_iff hm.label, hm.inCall.symm⟩

/-- Settles O30: the transport is as READ leaves it, no line touches the rest, and READ_ID's events are READ's without
the bytes, but for an `Ident`. -/
theorem readIdFrame : Obligations.ReadIdFrame := by
  intro s v target command address data count h
  by_cases hp : s.phase = .idle
  · obtain ⟨u, v', hu, hv, hm⟩ := exec_readId_mirrors hp target 0 0 0 command address data count
    obtain rfl : v' = v := Host.Outcome.next.inj (hv.symm.trans h)
    obtain ⟨-, -, -, -, -, hdraws, hopen, hwire⟩ := readFrame s u target 0 0 0 4 hu
    rw [exec_idle hp] at h
    obtain ⟨-, hreq, hreset, hdispatcher⟩ := runOp_sameOutside h
    obtain ⟨es, es', -, he', hes⟩ := hm.events
    rw [hm.transport] at hdraws hopen hwire
    exact ⟨hreq, hreset, hdispatcher, hdraws, hopen, hwire, es', he', byte_notMem_of_eventsMirror hes⟩
  · rw [exec_busy hp] at h
    cases h
    exact ⟨rfl, rfl, rfl, rfl, rfl, rfl, [], by simp, by simp⟩

end Sys2Proof.Machine

/-! ### READ_ID's slots: the first four bytes read -/

namespace Sys2Proof.Machine

section
variable {s t u : State} {q : List Byte}

/-- A byte stored at `IDX` is the next of the bytes the slots hold; a fifth is stored nowhere (R98, R99). -/
theorem Slots.write_slotsOf {i : BitVec 3} (hi : i.toNat = min q.length 4) (b : Byte) :
    (slotsOf q).write i b = slotsOf (q ++ [b]) := by
  unfold Slots.write
  rw [hi]
  match q with
  | [] | [_] | [_, _] | [_, _, _] | _ :: _ :: _ :: _ :: _ => simp [slotsOf]

/-- A slot no byte has reached is 0 (R97). -/
theorem Slots.read_slotsOf {i : Nat} (hi : min q.length 4 ≤ i) : (slotsOf q).read i = 0 := by
  unfold Slots.read
  split
  case h_5 => rfl
  all_goals exact List.getD_eq_default _ _ (by omega)

/-- Between `s` and `u` the slots have been filled with the bytes read, from empty ones on (R97, R98, R99). -/
def State.storesReads (s u : State) : Prop :=
  ∃ cs, u.trace = s.trace ++ cs ∧ u.slots = slotsOf (bytesRead cs) ∧ u.idx.toNat = min (bytesRead cs).length 4

/-- Of the lines behind ID0 only ID3 stores a byte, the one it has read (R98). -/
theorem Moves.storesReads (h : Moves t u) (hb : t.phase.behindId0) (ht : s.storesReads t) : s.storesReads u := by
  obtain ⟨cs, hc, hx, hi⟩ := ht
  cases h
  case id3 b _ _ _ _ =>
    refine ⟨cs ++ [.readByte b], by simp [hc], ?_, ?_⟩
    · simp [hx, Slots.write_slotsOf hi, Call.byteRead]
    · rw [nextIdx_toNat (by omega), hi]
      simp [Call.byteRead]
      omega
  case id1 | id2 | id2z | id4 | id5 | id6 =>
    exact ⟨cs ++ [_], by simp [hc]; rfl, by simp [hx, Call.byteRead], by simp [hi, Call.byteRead]⟩
  case id7 | id8 => exact ⟨cs, hc, hx, hi⟩
  all_goals simp [*, Phase.behindId0, Phase.inReadId] at hb

theorem exec_readId_storesReads {target command address data count : Byte} (hp : s.phase = .idle)
    (h : exec (.readId target command address data count) s = .next u) : s.storesReads u := by
  rw [exec_readId_idle hp] at h
  have hu := runOp_keeps (P := fun t => s.storesReads t ∧ t.phase.behindId0)
    (fun t v ⟨ht, hb⟩ hm => by
      have hi : t.idx.toNat ≤ 4 := by obtain ⟨cs, -, -, hi⟩ := ht; omega
      exact ⟨hm.storesReads hb ht, (hm.countsReads hb hi).2⟩)
    (fun _ ht _ => ht)
    ⟨⟨[], by simp [State.startReadId, State.start], rfl, rfl⟩, .inr ⟨rfl, by simp [State.startReadId]⟩⟩ h
  exact hu.1

end

/-- Settles O29: ID0 clears what the slots held, and behind it they hold the bytes read. -/
theorem readIdClearsSlots : Obligations.ReadIdClearsSlots := by
  intro s x j target command address data count hp
  refine ⟨?_, fun u h i hi => ?_⟩
  · rw [exec_readId_idle hp, exec_readId_idle (s := { s with slots := x, idx := j }) hp]
    rfl
  · obtain ⟨cs, -, hx, hidx⟩ := exec_readId_storesReads hp h
    rw [hx]
    exact Slots.read_slotsOf (hidx ▸ hi)

end Sys2Proof.Machine

/-! ### A READ_ID that ends, told by the READ beside it -/

namespace Sys2Proof.Machine

section
variable {s u : State} {ps : List (Byte × Bool)}

theorem withoutBytes_passEvents (ps : List (Byte × Bool)) :
    withoutBytes (passEvents ps) = ps.flatMap fun p => passTimeout p.2 := by
  induction ps with
  | nil => rfl
  | cons p ps ih => cases hf : p.2 <;> simp [ih, passTimeout, Event.isByte, hf]

theorem noData_notMem_passEvents (ps : List (Byte × Bool)) : Event.noData ∉ passEvents ps := by
  simp only [passEvents, List.mem_flatMap, passTimeout]
  rintro ⟨p, -, hm⟩
  split at hm <;> simp at hm

/-- What READ_ID reports where READ reports its passes (R89, R106). -/
theorem identReport_of_readEvents {fs : List Event} (h : readEvents ps = fs ++ [.done]) :
    identReport (slotsOf (ps.map Prod.fst)) fs ++ [.done] = readIdEvents ps := by
  rw [readEvents_eq, List.append_left_inj] at h
  subst h
  by_cases hps : ps = []
  · subst hps
    rfl
  · simp [identReport, readIdEvents, hps, withoutBytes_passEvents, noData_notMem_passEvents]

/-- A READ_ID that ends beside a READ with the passes `ps`, and has their bytes in its slots (R106). -/
theorem State.mirrors.events_ended {v : State} {ev : List Event} (hm : v.mirrors ev u) (hv : v.phase = .idle)
    (he : u.events = ev ++ readEvents ps) (hx : v.slots = slotsOf (ps.map Prod.fst)) :
    v.events = ev ++ readIdEvents ps := by
  obtain ⟨es, es', hes, hes', hmirror⟩ := hm.events
  obtain rfl : es = readEvents ps := List.append_cancel_left (hes.symm.trans he)
  rw [hv] at hmirror
  obtain ⟨fs, hfs, rfl⟩ := hmirror
  rw [hes', hx, identReport_of_readEvents hfs]

/-- A READ_ID leaves what READ of four bytes leaves where that ends, but for the latches, the slots and the events. -/
theorem exec_readId_of_read {target c a d : Byte} {cs : List Call} (hp : s.phase = .idle)
    (hu : exec (.read target c a d 4) s = .next u) (hend : u.phase = .idle)
    (he : u.events = s.events ++ readEvents ps) (htr : u.trace = s.trace ++ cs)
    (hb : bytesRead cs = ps.map Prod.fst) (command address data count : Byte) :
    exec (.readId target command address data count) s = .next
      { u with
        latches := ⟨0x02, target, command, address, data, count⟩
        slots := slotsOf (ps.map Prod.fst)
        idx := BitVec.ofNat 3 (min ps.length 4)
        events := s.events ++ readIdEvents ps } := by
  obtain ⟨w, v, hw, hv, hm⟩ := exec_readId_mirrors hp target c a d command address data count
  obtain rfl : u = w := Host.Outcome.next.inj (hu.symm.trans hw)
  have hvp : v.phase = .idle := (Phase.readLabel_idle_iff hm.label).mpr hend
  obtain ⟨cs', hc', hslots, hidx⟩ := exec_readId_storesReads hp hv
  obtain rfl : cs' = cs := List.append_cancel_left (hc'.symm.trans (hm.trace.symm.trans htr))
  rw [hb] at hslots hidx
  have hidx' : v.idx = BitVec.ofNat 3 (min ps.length 4) := by
    apply BitVec.eq_of_toNat_eq
    rw [hidx, BitVec.toNat_ofNat, List.length_map]
    omega
  have hur := runOp_sameOutside ((exec_idle hp _).symm.trans hu)
  have hvr := runOp_sameOutside ((exec_idle hp _).symm.trans hv)
  have hlatches : v.latches = ⟨0x02, target, command, address, data, count⟩ := hvr.latches
  have hreq : u.req = v.req := hur.req.trans hvr.req.symm
  have hreset : u.resetLine = v.resetLine := hur.resetLine.trans hvr.resetLine.symm
  have hdispatcher : u.dispatcher = v.dispatcher := hur.dispatcher.trans hvr.dispatcher.symm
  rw [hv, hend.trans hvp.symm, hm.inCall, ← hlatches, ← hslots, ← hidx', ← hm.events_ended hvp he hslots, hm.trace,
    hm.transport, hreq, hreset, hdispatcher]

theorem bytesRead_readTrace (target count : Byte) (ps : List (Byte × Bool)) :
    bytesRead (readTrace target count ps) = ps.map Prod.fst := by
  suffices hp : bytesRead (passTrace ps) = ps.map Prod.fst by simp [readTrace, Call.byteRead, hp]
  induction ps with
  | nil => rfl
  | cons p ps ih => cases hf : p.2 <;> simp [passTrace, Call.byteRead, hf, ih]

end

/-- Settles O51: the READ beside it has ended with the events of its passes (`ReadEventShape`). -/
theorem readIdEventShape : Obligations.ReadIdEventShape := by
  intro s v target command address data count hp h hv
  obtain ⟨u, v', hu, hv', hm⟩ := exec_readId_mirrors hp target 0 0 0 command address data count
  obtain rfl : v' = v := Host.Outcome.next.inj (hv'.symm.trans h)
  have hup : u.phase = .idle := (Phase.readLabel_idle_iff hm.label).mp hv
  obtain ⟨ps, cs, he, hc, hb, hf⟩ := readEventShape s u target 0 0 0 4 hp hu hup
  rw [exec_readId_of_read hp hu hup he hc hb] at h
  cases h
  exact ⟨ps, cs, rfl, hc, hb, hf, rfl⟩

/-- Settles O26: the READ beside it is that of `ReadNoDataCompletes`. -/
theorem readIdNoDataCompletes : Obligations.ReadIdNoDataCompletes := by
  intro s target command address data count x₀ x₁ rest hp ha hq
  exact exec_readId_of_read (ps := []) hp (readNoDataCompletes s target 0 0 0 4 x₀ x₁ rest hp ha hq) rfl rfl rfl rfl
    command address data count

/-- Settles O27: the READ beside it is that of `ReadCompletes`. -/
theorem readIdCompletes : Obligations.ReadIdCompletes := by
  intro s target command address data count x₀ x₁ rest q hp ha hk hq hn
  have hl := drain_flags_length _ (s.transport.tflag || Answer.touchesFlag x₀ || Answer.touchesFlag x₁) _ hn
  have hr := exec_readId_of_read hp (readCompletes s target 0 0 0 4 x₀ x₁ rest q hp ha hk hq hn) rfl rfl rfl
    (bytesRead_readTrace ..) command address data count
  rw [List.map_fst_zip hl.ge, List.length_zip, hl, Nat.min_self] at hr
  exact hr

end Sys2Proof.Machine

/-! ### The serial -/

namespace Sys2Proof.Machine

/-- The serial is exact in its 16 bits (R100). -/
theorem serialOf_toNat (high low : Byte) : (serialOf high low).toNat = high.toNat * 255 + low.toNat := by
  have hh := high.isLt
  have hl := low.isLt
  have h255 : (255 : BitVec 16).toNat = 255 := rfl
  simp only [serialOf, BitVec.toNat_add, BitVec.toNat_mul, BitVec.toNat_setWidth, h255]
  omega

/-- Settles O31: ID7 moves in one way, and equal naturals below 2^16 are equal serials. -/
theorem serialArithmetic : Obligations.SerialArithmetic := by
  refine ⟨fun s hp => line_of_moves (.id7 hp), fun h l => ⟨serialOf_toNat h l, ?_⟩, by decide, fun h hh => ?_,
    by decide, by decide⟩
  · rw [serialOf_toNat]
    omega
  · apply BitVec.eq_of_toNat_eq
    have hs : (h + 1).toNat = h.toNat + 1 := by bv_omega
    have h255 : (255 : Byte).toNat = 255 := rfl
    have h0 : (0 : Byte).toNat = 0 := rfl
    rw [serialOf_toNat, serialOf_toNat, hs, h255, h0]
    omega

end Sys2Proof.Machine

/-! ### padZeros: one zero for each place the number leaves free -/

namespace Sys2Proof.Machine

section
variable {value : Nat}

/-- The number of digits decides every threshold: `10 ^ k` exceeds the value where the value has at most `k` digits, 0
having none. -/
theorem padFrom_pow (value n k : Nat) :
    padFrom value n (10 ^ k) = List.replicate (k + n - max k (Nat.digits 10 value).length) '0' := by
  induction n generalizing k with
  | zero => simp [padFrom]
  | succ n ih =>
    rw [padFrom, ← pow_succ, ih]
    by_cases hk : value < 10 ^ k
    · have hd := (Nat.digits_length_le_iff (by norm_num) value).mpr hk
      rw [if_pos hk, max_eq_left hd, max_eq_left (hd.trans k.le_succ), Nat.add_sub_cancel_left, Nat.add_sub_cancel_left]
      rfl
    · have hd := (Nat.lt_digits_length_iff (by norm_num) value).mpr (not_lt.mp hk)
      rw [if_neg hk, max_eq_right hd.le, max_eq_right (show k + 1 ≤ _ from hd), Nat.add_right_comm]
      rfl

/-- padZeros prints a zero for each of its (at most 10) places that the number's digits leave free (R131). -/
theorem padZeros_eq_replicate (value precision : Nat) :
    padZeros value precision = List.replicate (min precision 10 - (Nat.digits 10 value).length) '0' := by
  simpa [padZeros] using padFrom_pow value (min precision 10) 0

/-- From 1 on the printed decimal is as long as the number's list of digits, which for 0 is empty (R124). -/
theorem length_decimal (h : 1 ≤ value) : (decimal value).length = (Nat.digits 10 value).length := by
  have hpos : 0 < (Nat.digits 10 value).length :=
    (Nat.lt_digits_length_iff (by norm_num) value).mpr (by simpa using h)
  have hle {k : Nat} (hk : 0 < k) : (decimal value).length ≤ k ↔ value < 10 ^ k :=
    Nat.length_toDigits_le_iff (by norm_num) hk
  apply le_antisymm
  · exact (hle hpos).mpr (Nat.lt_base_pow_length_digits (by norm_num))
  · exact (Nat.digits_length_le_iff (by norm_num) value).mpr ((hle Nat.length_toDigits_pos).mp le_rfl)

end

/-- Settles O46: the zeros are as many as the places the digits leave free. -/
theorem padZerosWidth : Obligations.PadZerosWidth := by
  intro value precision
  simp only [padZeros_eq_replicate, List.length_append, List.length_replicate]
  refine ⟨fun ch => List.eq_of_mem_replicate, fun hpos hlt => ?_, fun hle => ?_, by simp, fun hp => ?_⟩
  · have hd := (Nat.digits_length_le_iff (by norm_num) value).mpr hlt
    rw [length_decimal hpos, Nat.sub_add_cancel hd]
  · have hd := (Nat.lt_digits_length_iff (by norm_num) value).mpr hle
    rw [show min precision 10 - (Nat.digits 10 value).length = 0 by omega, List.replicate_zero]
  · rw [min_eq_right hp.le, min_self]

end Sys2Proof.Machine

/-! ### What the pseudo-operations issue, and the console lines of their events -/

namespace Sys2Proof.Machine

section
variable (p : Params) (target : Byte)

/-- The clamp saturates: what is cut off at 255 fits the byte (R112). -/
theorem clampDuty_toNat (duty : BitVec 16) : (clampDuty duty).toNat = min duty.toNat 255 := by
  rw [clampDuty, BitVec.toNat_ofNat]
  omega

theorem queryByte_eq (command : Byte) (label : Label) : queryByte target command label =
    [.issue (.encode target command 0xFF 0xFF 0) .silent, .issue (.read target 0 0 0 1) (.bytes label)] := rfl

theorem expand_toggleInd_of_ne {en : Byte} (h : en ≠ 0) : expand p (.toggleInd en) =
    [.issue (.encode p.holderAddr p.indOnPkt.command p.indOnPkt.address p.indOnPkt.data 0) .silent] := by
  rw [expand, if_neg h]
  rfl

/-! What the address-checked queries expand to, by the target (R127 to R129). -/

theorem expand_getVsense_cart0 : expand p (.getVsense p.cart0Addr) =
    queryByte p.cart0Addr p.cmdReadVsense .vsenseCart0 := by
  simp [expand]

theorem expand_getVsense_cart1 (h : p.cart1Addr ≠ p.cart0Addr) : expand p (.getVsense p.cart1Addr) =
    queryByte p.cart1Addr p.cmdReadVsense .vsenseCart1 := by
  simp [expand, h]

theorem expand_getVsense_other (h₀ : target ≠ p.cart0Addr) (h₁ : target ≠ p.cart1Addr) :
    expand p (.getVsense target) = [] := by
  simp [expand, h₀, h₁]

theorem expand_getGpioSw_cart1 : expand p (.getGpioSw p.cart1Addr) =
    queryByte p.cart1Addr p.cmdReadGpioSw .syringe := by
  simp [expand]

theorem expand_getGpioSw_other (h : target ≠ p.cart1Addr) : expand p (.getGpioSw target) = [] := by
  simp [expand, h]

end

/-- Settles O41: the one request carries the clamped duty, and the clamp is the minimum. -/
theorem fanDutyClamp : Obligations.FanDutyClamp :=
  fun _ duty => ⟨rfl, clampDuty_toNat duty, by decide, by decide, by decide, by decide⟩

/-- Settles O42: each is its rule's line of `expand`; TOGGLE_IND's depends on its operand being 0. -/
theorem pseudoOperationExpansions : Obligations.PseudoOperationExpansions :=
  fun p _ _ _ _ => ⟨rfl, rfl, rfl, rfl, expand_toggleInd_of_ne p, rfl, rfl, rfl, rfl⟩

/-- Settles O43: each of the six is `queryByte` of its code and label. -/
theorem oneByteQueries : Obligations.OneByteQueries := by
  intro p t op code l h
  rw [← queryByte_eq]
  simp only [List.mem_cons, List.not_mem_nil, or_false, Prod.mk.injEq] at h
  rcases h with h | h | h | h | h | h <;> (obtain ⟨rfl, rfl, rfl⟩ := h; rfl)

/-- Settles O44: the target is cartridge 0, cartridge 1 or neither. -/
theorem addressRestrictedQueries : Obligations.AddressRestrictedQueries := by
  intro p t
  simp only [← queryByte_eq]
  constructor
  · by_cases h₀ : t = p.cart0Addr
    · subst h₀
      simp [expand_getVsense_cart0]
    · by_cases h₁ : t = p.cart1Addr
      · subst h₁
        simp [expand_getVsense_cart1 p h₀, h₀]
      · rw [expand_getVsense_other p t h₀ h₁, if_pos ⟨h₀, h₁⟩]
  · by_cases h₁ : t = p.cart1Addr
    · subst h₁
      simp [expand_getGpioSw_cart1]
    · rw [expand_getGpioSw_other p t h₁, if_pos h₁]

/-- Settles O45: each kind of report has its line for each kind of event. -/
theorem consoleLinesOfEvents : Obligations.ConsoleLinesOfEvents :=
  fun _ _ _ _ _ _ => ⟨fun _ => rfl, rfl, rfl, rfl, rfl, rfl, rfl, rfl, rfl⟩

end Sys2Proof.Machine

/-! ### The host's turn -/

namespace Sys2Proof.Machine

/-- It is the host's turn: the block is idle, not being reset, and has no request presented (R110). -/
structure State.hostsTurn (s : State) : Prop where
  resetLine : s.resetLine = false
  phase : s.phase = .idle
  req : s.req = none

/-- The host with all events taken and the new ones reported (R124). -/
def State.reported (s : State) : State :=
  s.setDispatcher { s.dispatcher with
    taken := s.events.length
    console := s.dispatcher.console ++
      (s.events.drop s.dispatcher.taken).flatMap (reportEvent Config.params s.dispatcher.report) }

/-- The host with the request at the head of its running pseudo-operation gone out, `rest` left to do. -/
def State.issued (s : State) (r : Report) (rest : List Action) : State :=
  s.setDispatcher { s.dispatcher with todo := rest, report := r }

/-- The host with the pseudo-operation at the head of its program begun, `prog` left of the program. -/
def State.takenUp (s : State) (op : PseudoOp) (prog : List HostOp) : State :=
  s.setDispatcher { s.dispatcher with program := prog, todo := expand Config.params op }

section
variable {s : State} {i : Instr} {r : Report} {rest : List Action} {prog : List HostOp}

theorem step_hostsTurn (hs : s.hostsTurn) : step s = .next (hostStep Config.params s) :=
  step_host hs.resetLine hs.phase hs.req

/-! One equation for each action the host's turn can be. -/

theorem step_reports (hs : s.hostsTurn) (h : s.dispatcher.taken < s.events.length) : step s = .next s.reported := by
  simp [step_hostsTurn hs, hostStep, h, State.reported]

theorem step_issues (hs : s.hostsTurn) (h : s.events.length ≤ s.dispatcher.taken)
    (ht : s.dispatcher.todo = .issue i r :: rest) : step s = .next ((s.issued r rest).setReq (some (encodeReq i))) := by
  simp [step_hostsTurn hs, hostStep, h.not_gt, ht, State.issued]

theorem step_says {l : Label} (hs : s.hostsTurn) (h : s.events.length ≤ s.dispatcher.taken)
    (ht : s.dispatcher.todo = .say l :: rest) : step s = .next (s.setDispatcher
      { s.dispatcher with todo := rest, console := s.dispatcher.console ++ [⟨l, []⟩] }) := by
  simp [step_hostsTurn hs, hostStep, h.not_gt, ht]

theorem step_takesUp_pseudo {op : PseudoOp} (hs : s.hostsTurn) (h : s.events.length ≤ s.dispatcher.taken)
    (ht : s.dispatcher.todo = []) (hp : s.dispatcher.program = .pseudo op :: prog) :
    step s = .next (s.takenUp op prog) := by
  simp [step_hostsTurn hs, hostStep, h.not_gt, ht, hp, State.takenUp]

theorem step_takesUp_request {w : ReqWord} (hs : s.hostsTurn) (h : s.events.length ≤ s.dispatcher.taken)
    (ht : s.dispatcher.todo = []) (hp : s.dispatcher.program = .request w r :: prog) :
    step s = .next ((s.setDispatcher { s.dispatcher with program := prog, report := r }).setReq (some w)) := by
  simp [step_hostsTurn hs, hostStep, h.not_gt, ht, hp]

end

/-- Settles O47: one equation for each of the host's actions, none of which touches the block or the transport. -/
theorem hostTurn : Obligations.HostTurn := by
  intro s hr hp hq
  have hs : s.hostsTurn := ⟨hr, hp, hq⟩
  refine ⟨?_, step_reports hs, fun _ _ _ => step_issues hs, fun _ _ => step_says hs,
    fun _ _ => step_takesUp_pseudo hs, fun _ _ _ => step_takesUp_request hs⟩
  obtain ⟨r, d, hu, -⟩ := hostStep_frame Config.params s
  exact ⟨_, step_hostsTurn hs, by simp [hu, hp]⟩

end Sys2Proof.Machine

/-! ### A request of the host, from its issue to the report of its events -/

namespace Sys2Proof.Machine

section
variable {s t u : State} {i : Instr} {r : Report} {todo : List Action}

theorem run_step (h : step s = .next t) (k : Nat) : Sys2Proof.core.run (k + 1) s = Sys2Proof.core.run k t := by
  simp [Host.Core.run, show Sys2Proof.core.step s = .next t from h]

theorem exec_sameOutside (hp : s.phase = .idle) (h : exec i s = .next u) :
    u.req = s.req ∧ u.resetLine = s.resetLine ∧ u.dispatcher = s.dispatcher := by
  rw [exec_idle hp] at h
  obtain ⟨-, hq, hr, hd⟩ := runOp_sameOutside h
  exact ⟨hq, hr, hd⟩

/-- A request that ends takes three steps: the host issues it, the block runs it, the host reports its events. Then it
is the host's turn again (R110, R124). -/
theorem run_request (hs : s.hostsTurn) (htaken : s.dispatcher.taken = s.events.length)
    (htodo : s.dispatcher.todo = .issue i r :: todo) (h : exec i (s.issued r todo) = .next u) (hu : u.phase = .idle) :
    (∀ k, Sys2Proof.core.run (k + 3) s = Sys2Proof.core.run k u.reported) ∧ u.reported.hostsTurn := by
  obtain ⟨hq, hr, hd⟩ := exec_sameOutside (s := s.issued r todo) hs.phase h
  have hturn : u.hostsTurn := ⟨hr.trans hs.resetLine, hu, hq.trans hs.req⟩
  have hnew : u.dispatcher.taken < u.events.length := by
    obtain ⟨es, -, he⟩ := oneDonePerOperation.1 i (s.issued r todo) u hs.phase h
    rw [hd, he, if_pos hu]
    simp [State.issued, htaken]
  have hrun : step ((s.issued r todo).setReq (some (encodeReq i))) = .next u := by
    have hw : ((s.issued r todo).setReq (some (encodeReq i))).setReq none = s.issued r todo := by
      rw [State.setReq, ← hs.req]
      rfl
    rw [step_request (s := (s.issued r todo).setReq _) hs.resetLine hs.phase rfl, acceptWord_ok (decodeOfEncode i), hw,
      h]
  refine ⟨fun k => ?_, hturn.resetLine, hturn.phase, hturn.req⟩
  rw [run_step (step_issues hs htaken.ge htodo), run_step hrun, run_step (step_reports hturn hnew)]

end

/-- READ of one byte, the transport quiet and leaving the queue alone: one pass of the loop with no time-out (R81 to
R86). -/
theorem exec_read_one_byte {s : State} {b : Byte} {rest : List Answer} (hp : s.phase = .idle)
    (hf : s.transport.tflag = false)
    (ha : s.transport.answers = ⟨false, false, some [b]⟩ :: List.replicate 4 ⟨false, false, none⟩ ++ rest)
    (target command address data count : Byte) :
    exec (.read target command address data count) s = .next
      { s with
        phase := .idle
        inCall := false
        latches := ⟨0x01, target, command, address, data, count⟩
        events := s.events ++ [.byte b, .done]
        trace := s.trace ++ [.requestBytes target count, .bytesAvailable 1, .readByte b, .timeoutFlagSet false,
          .bytesAvailable 0]
        transport := { s.transport with rxq := [], answers := rest } } := by
  rw [exec_idle hp, runOp_rd0 (s := s.start _) (q := [b]) rfl ha rfl, runOp_moves (.rd2 rfl rfl rfl),
    runOp_moves (.rd3 rfl rfl),
    runOp_moves (.rd5 (by simp [State.readCounted, State.start, hf, Answer.touchesFlag]) rfl), runOp_rd6 rfl]
  simp [State.readCounted, State.start, Instr.latches, opRead, hf, Answer.touchesFlag, Transport.disturb]

/-- Settles O48: the host takes up EE_READ, and then its two requests run one after the other. -/
theorem eepromReadEndToEnd : Obligations.EepromReadEndToEnd := by
  intro s target cell b prog xs rest hr hp hq htaken htodo hprog hlen hquiet hflag ha
  rw [List.append_assoc] at ha
  have hup := step_takesUp_pseudo ⟨hr, hp, hq⟩ htaken.ge htodo hprog
  obtain ⟨hrun₁, hs₁⟩ := run_request (s := s.takenUp (.eeRead target cell) prog) ⟨hr, hp, hq⟩ htaken rfl
    (encodeCompletes.1 _ target Config.params.cmdEeRead cell 0xFF 0 xs _ hp hlen ha) rfl
  have hflag' : (s.transport.tflag || xs.any Answer.touchesFlag) = false := by simpa [hflag] using hquiet
  obtain ⟨hrun₂, hs₂⟩ := run_request hs₁ rfl rfl (exec_read_one_byte rfl hflag' rfl target 0 0 0 1) rfl
  refine ⟨_, (run_step hup 6).trans ((hrun₁ 3).trans (hrun₂ 0)), rfl, hs₂.req, rfl, rfl, ?_, ?_, rfl, ?_⟩ <;>
    simp [State.reported, State.issued, State.takenUp, reportEvent, htaken]

end Sys2Proof.Machine

/-! ### No fault under the invariant -/

namespace Sys2Proof.Machine

section
variable {s : State} {f : Fault}

theorem applyReset_ne_fault (s : State) (f : Fault) : applyReset s ≠ .fault f := by
  unfold applyReset
  split <;> simp

/-- A step faults only in a run: of the operation going on, or of one just accepted. -/
theorem step_fault_inv (h : step s = .fault f) :
    runOp s.drawAnswer = .fault f ∨ ∃ i, runOp ((s.setReq none).start i) = .fault f := by
  cases hr : s.resetLine with
  | true => exact absurd (step_reset hr ▸ h) (applyReset_ne_fault s f)
  | false =>
    by_cases hp : s.phase = .idle
    · cases hq : s.req with
      | some w =>
        rw [step_request hr hp hq] at h
        cases hd : decodeReq w with
        | ok i =>
          rw [acceptWord_ok hd, exec_idle (s := s.setReq none) hp] at h
          exact .inr ⟨i, h⟩
        | error e => simp [acceptWord, hd] at h
      | none => simp [step_host hr hp hq] at h
    · exact .inl (step_busy hr hp ▸ h)

theorem runOp_ne_fault (hs : s.callsReady) (f : Fault) : runOp s ≠ .fault f := by
  obtain ⟨u, hu⟩ := runOp_of_callsReady hs
  simp [hu]

end

/-- Settles O40: a step faults only in a run, and what a run's calls need holds under the invariant, whatever answer is
drawn, and at acceptance. -/
theorem invExcludesFaults : Obligations.InvExcludesFaults := by
  intro s f hs h
  rcases step_fault_inv h with hrun | ⟨i, hrun⟩
  · exact runOp_ne_fault (drawAnswer_keepsInv hs).callsReady f hrun
  · exact runOp_ne_fault (start_callsReady _ i) f hrun

end Sys2Proof.Machine

/-! ### Where a READ or a READ_ID stands while it waits -/

namespace Sys2Proof.Machine

section
variable {s t u : State}

/-- A state whose call is pending is as it stands there already. -/
theorem waiting_of_inCall (h : s.inCall = true) : s.waiting = s := by
  cases s
  simp_all [State.waiting]

/-- Where the line emits nothing before its call, waiting at it only marks the call as made. -/
theorem waiting_of_before_nil (h : s.phase.before = []) : s.waiting = s.setInCall true := by
  simp [State.waiting, State.setInCall, h]

/-- A line of READ that leads to a call has made a call of its own, and emitted what that one reports (R81, R84,
R85). -/
theorem Moves.read_nextCall (h : Moves s u) (hs : s.phase.inRead = true) (hu : u.phase.makesCall = true) :
    s.phase.makesCall = true ∧ ∃ c, u.trace = s.trace ++ [c] ∧ u.phase = c.readNext ∧
      u.waiting.events = s.waiting.events ++ c.readReports := by
  cases h
  case rd1z | rd6 => simp [Phase.makesCall] at hu
  case rd0 hp _ | rd1 hp _ _ | rd2 hp _ _ | rd4 hp _ =>
    exact ⟨hp ▸ rfl, _, rfl, rfl, by simp [State.waiting, hp, Phase.before, Call.readReports]⟩
  case rd3 x _ hp _ =>
    refine ⟨hp ▸ rfl, _, rfl, rfl, ?_⟩
    cases s.transport.tflag || x.setsFlag <;>
      simp [State.waiting, hp, Phase.before, Call.readReports, passTimeout]
  case rd5 x _ hp _ =>
    by_cases hz : x.rxq.getD s.transport.rxq = []
    · simp [hz, Phase.makesCall] at hu
    · exact ⟨hp ▸ rfl, _, rfl, if_neg hz, by simp [State.waiting, hp, hz, Phase.before, Call.readReports]⟩
  all_goals simp [*, Phase.inRead] at hs

/-- A READ begun in `s` that stands at a call in `u`: `cs` are the calls made, and `u.waiting` counts what is emitted
before the call at hand as emitted (R81, R172). -/
def State.readStandsAt (s u : State) : Prop :=
  u.phase.makesCall = true → ∃ cs, u.trace = s.trace ++ cs ∧
    u.phase = (cs.getLast?.map Call.readNext).getD .rd0 ∧ u.waiting.events = s.events ++ cs.flatMap Call.readReports

/-- Each line of READ makes the call it stands at. -/
theorem Moves.readStandsAt (h : Moves t u) (hp : t.phase.inRead = true) (ht : s.readStandsAt t) :
    s.readStandsAt u := by
  intro hu
  obtain ⟨hc, c, htr, hn, he⟩ := h.read_nextCall hp hu
  obtain ⟨cs, htr', -, he'⟩ := ht hc
  exact ⟨cs ++ [c], by simp [htr, htr'], by simp [hn], by simp [he, he']⟩

theorem waiting_readStandsAt (ht : s.readStandsAt t) : s.readStandsAt t.waiting := by
  rw [State.readStandsAt, waiting_of_inCall (s := t.waiting) rfl]
  exact ht

/-- A run that gives a state which is not idle waits there at a call, with no answer left (R172). -/
theorem runOp_pending (h : runOp s = .next u) (hu : u.phase ≠ .idle) :
    u.inCall = true ∧ u.phase.makesCall = true ∧ u.transport.answers = [] :=
  (runOp_endedOrWaits h).resolve_left hu

/-- A label of READ at a call is the label of one label of READ_ID. -/
theorem Phase.readLabel_inj {p q r : Phase} (hc : p.makesCall = true) (hp : p.readLabel = some r)
    (hq : q.readLabel = some r) : q = p := by
  cases p
  case id1 | id2 | id3 | id4 | id5 | id6 => cases hp; cases q <;> simp [Phase.readLabel] at hq ⊢
  all_goals simp [Phase.readLabel, Phase.makesCall] at hp hc

/-- READ_ID's next call is made at the label beside that of READ's (R81, R96). -/
theorem readLabel_readIdNext (c : Call) : c.readIdNext.readLabel = some c.readNext := by
  cases c
  case timeoutFlagSet f => cases f <;> rfl
  all_goals rfl

theorem readLabel_nextCall (cs : List Call) : ((cs.getLast?.map Call.readIdNext).getD .id1).readLabel =
    some ((cs.getLast?.map Call.readNext).getD .rd0) := by
  cases cs.getLast? with
  | none => rfl
  | some c => exact readLabel_readIdNext c

/-- Of a call READ_ID reports what READ does, but for the byte (R104). -/
theorem withoutBytes_readReports (cs : List Call) :
    withoutBytes (cs.flatMap Call.readReports) = cs.flatMap Call.readIdReports := by
  induction cs with
  | nil => rfl
  | cons c cs ih =>
    rw [List.flatMap_cons, List.flatMap_cons, withoutBytes_append, ih]
    congr 1
    cases c
    case timeoutFlagSet f => cases f <;> rfl
    all_goals rfl

end

/-- Settles O49: each line of READ leads from one call to the next with its reports, up to the call that waits. -/
theorem readWaitsAtAnyCall : Obligations.ReadWaitsAtAnyCall := by
  intro s u target command address data count hp h hu
  rw [exec_idle hp] at h
  obtain ⟨hi, hc, ha⟩ := runOp_pending h hu
  have hstart : s.readStandsAt (s.start (.read target command address data count)) :=
    fun _ => ⟨[], by simp [State.start], rfl, by
      rw [waiting_of_before_nil (s := s.start _) rfl]
      simp [State.start]⟩
  have hs : s.readStandsAt u := runOp_read_keeps (fun _ _ ht hr hm => hm.readStandsAt hr ht)
    (fun _ => waiting_readStandsAt) hstart rfl h
  obtain ⟨cs, htr, hph, he⟩ := hs hc
  rw [waiting_of_inCall hi] at he
  exact ⟨hi, ha, cs, htr, hph, he⟩

/-- Settles O52: the READ beside it waits at the same call (`ReadWaitsAtAnyCall`), and the slots hold the bytes read. -/
theorem readIdWaitsAtAnyCall : Obligations.ReadIdWaitsAtAnyCall := by
  intro s v target command address data count hp h hv
  obtain ⟨hi, hc, ha⟩ := runOp_pending ((exec_idle hp _).symm.trans h) hv
  obtain ⟨u, v', hu, hv', hm⟩ := exec_readId_mirrors hp target 0 0 0 command address data count
  obtain rfl : v' = v := Host.Outcome.next.inj (hv'.symm.trans h)
  obtain ⟨-, -, cs, htr, hph, he⟩ :=
    readWaitsAtAnyCall s u target 0 0 0 4 hp hu (mt (Phase.readLabel_idle_iff hm.label).mpr hv)
  have htr' : v'.trace = s.trace ++ cs := hm.trace.symm.trans htr
  obtain ⟨es, es', hes, hes', hmirror⟩ := hm.events
  obtain rfl : es = cs.flatMap Call.readReports := List.append_cancel_left (hes.symm.trans he)
  obtain ⟨-, rfl⟩ := (eventsMirror_makesCall hc).mp hmirror
  obtain ⟨cs', hc', hslots, hidx⟩ := exec_readId_storesReads hp h
  obtain rfl : cs' = cs := List.append_cancel_left (hc'.symm.trans htr')
  exact ⟨hi, ha, cs', htr', (Phase.readLabel_inj hc hm.label (hph ▸ readLabel_nextCall cs')).symm,
    withoutBytes_readReports cs' ▸ hes', hslots, hidx⟩

/-- Settles O25: READ waits at its first line; READ_ID clears its slots (ID0) and waits at the next. -/
theorem readsStayAtPendingRequest : Obligations.ReadsStayAtPendingRequest := by
  intro s target command address data count hp ha
  refine ⟨?_, ?_⟩
  · rw [exec_idle hp, runOp_waits (s := s.start _) rfl ha, waiting_of_before_nil (s := s.start _) rfl]
    rfl
  · rw [exec_readId_idle hp, runOp_waits (s := s.startReadId ..) rfl ha,
      waiting_of_before_nil (s := s.startReadId ..) rfl]
    rfl

end Sys2Proof.Machine

/-! ### A pending call with no listed answer, and the reset input -/

namespace Sys2Proof.Machine

section
variable {s : State}

/-- A block at a pending call, with the draw of a free answer counted (log entry 3). -/
def State.countDraw (s : State) : State := s.setTransport { s.transport with draws := s.transport.draws + 1 }

theorem drawAnswer_of_none (ha : s.transport.answers = [])
    (hx : Config.freeAnswer s.transport.draws = none) : s.drawAnswer = s.countDraw := by
  simp [State.drawAnswer, State.countDraw, ha, hx]

theorem drawAnswer_of_some {x : Answer} (ha : s.transport.answers = [])
    (hx : Config.freeAnswer s.transport.draws = some x) : s.drawAnswer = s.countDraw.withAnswers [x] := by
  simp [State.drawAnswer, State.countDraw, State.withAnswers, State.setTransport, ha, hx]

theorem step_reset_idle (hr : s.resetLine = true) (hp : s.phase = .idle) : step s = .next s.afterReset := by
  rw [step_reset hr, applyReset, State.not_busy hp]
  rfl

theorem step_reset_busy (hr : s.resetLine = true) (hb : s.busy = true) : step s = .refused .resetWhileBusy := by
  rw [step_reset hr, applyReset, if_pos hb]

end

/-- Settles O54: with no answer drawn the block waits where it stands; with one drawn it runs on from the state that
lists it. -/
theorem pendingCallTakesFreeAnswer : Obligations.PendingCallTakesFreeAnswer := by
  intro s hr hi hc ha
  have hb := running_of_makesCall hc
  rw [step_busy hr hb]
  cases hx : Config.freeAnswer s.transport.draws with
  | none =>
    rw [drawAnswer_of_none ha hx, runOp_waits (s := s.countDraw) hc ha, waiting_of_inCall (s := s.countDraw) hi]
    rfl
  | some x =>
    rw [drawAnswer_of_some ha hx]
    exact (step_busy_of_answers (s := s.countDraw.withAnswers [x]) hr hb (by simp [State.withAnswers])).symm

/-- Settles O9: the block is as after reset, which empties the stream, and the transport is not the block's own. -/
theorem resetInputOnIdleBlock : Obligations.ResetInputOnIdleBlock :=
  fun s hr hp => ⟨s.afterReset, step_reset_idle hr hp, rfl, rfl, rfl, rfl⟩

/-- Settles O10: the busy block refuses the reset, and the idle block takes it. -/
theorem resetRefusedExactlyWhileBusy : Obligations.ResetRefusedExactlyWhileBusy := by
  intro s hr
  refine ⟨fun h => State.busy_iff.mpr fun hp => ?_, step_reset_busy hr⟩
  simp [step_reset_idle hr hp] at h

end Sys2Proof.Machine
